-- ==== Sys2Proof/Word.lean ====
section
/-! DEFINITION. The word types of the CRC64 block (spec/00_scope.md rules R7, R8): every value is an unsigned
bit vector, bit 0 the least significant. -/

namespace Sys2Proof

/-- A message byte, a digest byte. -/
abbrev Byte := BitVec 8

/-- A transaction word (R80) and what ERRINFO records (R29). -/
abbrev Half := BitVec 16

/-- A value of the 32-bit register port (R5, BUS_W). -/
abbrev Word := BitVec 32

/-- A value of the datapath (R5, W): accumulator, polynomial, seed, output XOR, table entry. -/
abbrev DWord := BitVec 64

/-- An offset in the 4096-byte register window (R50). -/
abbrev Offset := BitVec 12

end Sys2Proof
end

