-- ==== Sys2Proof/Config.lean ====
section
/-! DEFINITION. The implementation parameters of spec/00_scope.md rule R5 and the one free value of the spec.
Every parameter the spec calls OPEN is a constant WITHOUT a body: nothing proved of the model can depend on
its value, so every statement holds for every implementation. -/

namespace Sys2Proof

/-- `IMPL` (R5): a table RAM built from POLY, or a combinational reduction without one. -/
inductive Impl where
  | table
  | parallel
  deriving DecidableEq, Repr, Inhabited

/-- `LANES` (R5): message bytes folded per clock cycle, 1, 2 or 4. -/
inductive Lanes where
  | one
  | two
  | four
  deriving DecidableEq, Repr, Inhabited

/-- The block holds a table RAM exactly when `IMPL = TABLE` (R38). -/
def Impl.hasRam : Impl → Bool
  | .table => true
  | .parallel => false

/-- CAPS.STRATEGY (R24): 0 for TABLE, 1 for PARALLEL. -/
def Impl.strategy : Impl → BitVec 1
  | .table => 0
  | .parallel => 1

/-- The number of lanes. -/
def Lanes.count : Lanes → Nat
  | .one => 1
  | .two => 2
  | .four => 4

/-- CAPS.LANES_LOG2 (R24): 0, 1 or 2; the value 3 is never read. -/
def Lanes.log2 : Lanes → BitVec 2
  | .one => 0
  | .two => 1
  | .four => 2

/-- `IMPL`, OPEN (R5, D20; log entry 5). -/
opaque Config.impl : Impl

/-- `LANES`, OPEN (R5, D20; log entry 5). -/
opaque Config.lanes : Lanes

/-- `BASE` / 4096, OPEN (R5, D4; log entry 5): BASE is a multiple of the window size. -/
opaque Config.basePage : Nat

/-- `T_ACC`, OPEN (R5, D26; log entry 5): clock cycles of a register access with no fold. -/
opaque Config.tAcc : Nat

/-- `T_BUILD` of an implementation with a table RAM, OPEN (R5, D26; log entry 5). -/
opaque Config.tBuildTable : Nat

/-- `T_BUILD` (R5): clock cycles to rebuild the table RAM; 0 when `IMPL = PARALLEL`. -/
def Config.tBuild : Nat :=
  match Config.impl with
  | .table => Config.tBuildTable
  | .parallel => 0

/-- `WIN` (R5, D4): the size of the register window in bytes. -/
def Config.win : Nat := 4096

/-- `BASE` (R5, D4): a multiple of 4096. -/
def Config.base : Nat := Config.win * Config.basePage

/-- `POLY_RESET` (spec/93_implementation_defined.md section 1), at the default the spec gives: the reset value
of POLY (R30, R41; C1; log entry 10). -/
def Config.polyReset : DWord := 0xC96C5795D7870F42

/-- FREE VALUE (R41: the table RAM is "unspecified while BUILDING = 1, and never observable then"; log entry 6):
the contents of the table RAM during build number `n`. -/
opaque Config.ramWhileBuilding (n : Nat) : Vector DWord 256

end Sys2Proof
end

