-- ==== Sys2Proof/Syntax.lean ====
section
/-! DEFINITION. Transactions, registers, bus-error causes and the operations of the block: `Instr` has one
constructor per row of spec/opcode_table.json (spec/30_encoding.md rule R85). An operand is an offset bit the
row's mask leaves free, or the write data (R86). Write data is carried whole, 32 bits, as the port carries it;
the meaning ignores the bits R82 ignores. -/

namespace Sys2Proof

/-- A transaction `(tw, wdata)` (R80). For a read, `wdata` is not present: the model carries a value there that
nothing looks at (log entry 15). -/
structure Transaction where
  tw : Half
  wdata : Word
  deriving DecidableEq, Repr

/-- The transfer sizes the 32-bit port carries (R52, R81). -/
inductive Size where
  | b1
  | b2
  | b4
  deriving DecidableEq, Repr

/-- The registers of the map (spec/20_memory.md rule R56). -/
inductive Reg where
  | id | caps | ctrl | status | cmd | bytecount | errinfo
  | polyLo | polyHi | seedLo | seedHi | xoroutLo | xoroutHi | accLo | accHi
  | data | resultLo | resultHi | digest | table
  deriving DecidableEq, Repr

/-- The causes a bus error records (spec/60_exceptions.md rule R201, codes 1 to 5). -/
inductive BusCause where
  | unmapped
  | badSize
  | misaligned
  | readOnly
  | badSz64
  deriving DecidableEq, Repr

/-- The 36 operations of R85. `wdata` is the 32-bit write value; `lane` is OFF[1:0] of a DATA write; `k` is
OFF - 0x050 of a DIGEST read; `i` and `h` are the table index and half of a TABLE read (R86). -/
inductive Instr where
  | rd32Id
  | rd32Caps
  | rd32Ctrl
  | wr32Ctrl (wdata : Word)
  | rd32Status
  | wr32Status (wdata : Word)
  | wr32Cmd (wdata : Word)
  | rd32Cmd
  | rd32Bytecount
  | rd32Errinfo
  | rd32PolyLo
  | rd32PolyHi
  | wr32PolyLo (wdata : Word)
  | wr32PolyHi (wdata : Word)
  | rd32SeedLo
  | rd32SeedHi
  | wr32SeedLo (wdata : Word)
  | wr32SeedHi (wdata : Word)
  | rd32XoroutLo
  | rd32XoroutHi
  | wr32XoroutLo (wdata : Word)
  | wr32XoroutHi (wdata : Word)
  | rd32AccLo
  | rd32AccHi
  | wr32AccLo (wdata : Word)
  | wr32AccHi (wdata : Word)
  | wr8Data (lane : BitVec 2) (wdata : Word)
  | wr16Data (lane : BitVec 2) (wdata : Word)
  | wr32Data (wdata : Word)
  | rd32Data
  | rd32ResultLo
  | rd32ResultHi
  | rd8Digest (k : BitVec 3)
  | rd16Digest (k : BitVec 3)
  | rd32Digest (k : BitVec 3)
  | rd32Table (i : BitVec 8) (h : BitVec 1)
  deriving DecidableEq, Repr

/-- What a transaction word spells (R84, R89): an operation, a bus error, or nothing. -/
inductive Decoded where
  | op (i : Instr)
  | busError (c : BusCause)
  | notATransaction
  deriving DecidableEq, Repr

end Sys2Proof
end

