-- ==== Sys2Proof/Machine/State.lean ====
section
/-! DEFINITION. The state of the block (spec/10_state.md rule R20) with the host's side of the port beside it,
and the state right after reset (R41, R230). State is plain data. -/

namespace Sys2Proof.Machine

/-- What the outside world does at the port: the host issues a transaction (R60), or the platform asserts and
releases reset, abandoning the transaction in progress if there is one (R230, R231; log entry 11). -/
inductive HostEvent where
  | transaction (t : Transaction)
  | reset (abandoned : Option Transaction)
  deriving DecidableEq, Repr

/-- The two responses of a transaction (R10). -/
inductive ResponseCode where
  | okay
  | slverr
  deriving DecidableEq, Repr

/-- One response. `rdata` is the value a read returns, zero-extended to 32 bits (R83); a write returns none. -/
structure Response where
  code : ResponseCode
  rdata : Option Word
  deriving DecidableEq, Repr

/-- The machine: the block's state (R20, "Nothing else is state"), then the model's own three fields. -/
structure State where
  /-- CTRL.REFLECT (R25): true for the reflected order. -/
  reflect : Bool
  /-- STATUS.ERR (R26). -/
  err : Bool
  /-- STATUS.CAUSE (R26). -/
  cause : BitVec 4
  /-- ERRINFO, bits 15:0 (R29). -/
  errinfo : Half
  /-- BYTECOUNT (R28). -/
  bytecount : Word
  /-- POLY (R30). -/
  poly : DWord
  /-- SEED (R31). -/
  seed : DWord
  /-- XOROUT (R32). -/
  xorout : DWord
  /-- ACC (R33). -/
  acc : DWord
  /-- The table RAM (R38); none where the block has none, that is, when IMPL = PARALLEL. -/
  tableRam : Option (Vector DWord 256)
  /-- BUILDING (R39). -/
  building : Bool
  /-- The model's own: the index of the next free value of the RAM during a build (log entry 6). -/
  ramDraws : Nat
  /-- The model's own: the bus events not yet taken, oldest first (R60; log entry 1). -/
  pending : List HostEvent
  /-- The model's own: the responses given, oldest first (R241; log entry 3). -/
  responses : List Response
  deriving DecidableEq, Repr

/-- No machine fault exists: a bus error is answered with SLVERR and the machine goes on (R200 to R202, R206;
log entry 14), so nothing raises one. Safe: no claim can rest on a fault. -/
inductive Fault where
  deriving DecidableEq, Repr

/-- Why a step has no meaning. -/
inductive Refusal where
  /-- Raised by an arm of `exec` whose instruction has no meaning yet (none in this model). Safe. -/
  | notModelled (mnemonic : String)
  /-- Raised by a step whose event is a word with RSV = 1: "A word with RSV = 1 is not a transaction ...
  A model's decoder refuses such a word by name (it spells nothing) and gives it no step." (R89). Safe. -/
  | notATransaction
  deriving DecidableEq, Repr

/-- The state right after reset (R41, R230). BUILDING is 1 exactly when IMPL = TABLE; the table RAM is then
unspecified, a free value. The model's own fields: nothing is pending, nothing has been answered, and the
reset build has taken free value 0 (log entries 1, 3, 6). -/
def State.reset : State where
  reflect := true
  err := false
  cause := 0
  errinfo := 0
  bytecount := 0
  poly := Config.polyReset
  seed := 0
  xorout := 0
  acc := 0
  tableRam := if Config.impl.hasRam then some (Config.ramWhileBuilding 0) else none
  building := Config.impl.hasRam
  ramDraws := 1
  pending := []
  responses := []

end Sys2Proof.Machine
end

