-- ==== Sys2Proof/Machine/Flags.lean ====
section
/-! DEFINITION. The block's only flags are STATUS.ERR and STATUS.CAUSE (spec/10_state.md rule R40); no datapath
operation touches them. The words STATUS and ERRINFO read as (R164, R169), the recording of an error (R202) and
its clearing (R165). -/

namespace Sys2Proof.Machine

/-- The cause codes of R201. -/
def causeCode : BusCause → BitVec 4
  | .unmapped => 1
  | .badSize => 2
  | .misaligned => 3
  | .readOnly => 4
  | .badSz64 => 5

/-- STATUS as it reads: `{24'h000000, CAUSE, 3'b000, ERR}` (R164). -/
def statusWord (s : State) : Word := 0#24 ++ s.cause ++ 0#3 ++ BitVec.ofBool s.err

/-- ERRINFO as it reads: `zext_32(ERRINFO[15:0])` (R169). -/
def errinfoWord (s : State) : Word := s.errinfo.setWidth 32

/-- CTRL as it reads: `zext_32(CTRL.REFLECT)` (R162). -/
def ctrlWord (s : State) : Word := (BitVec.ofBool s.reflect).setWidth 32

/-- The record of a bus error (R202): the first since the last clear is kept, a later one is not recorded (R207). -/
def recordError (c : BusCause) (tw : Half) (s : State) : State :=
  { s with
    err := true
    cause := if s.err then s.cause else causeCode c
    errinfo := if s.err then s.errinfo else tw }

/-- Write 1 to clear (R165): ERR and CAUSE are cleared when bit 0 of the written value is 1; ERRINFO stays. -/
def clearStatus (wdata : Word) (s : State) : State :=
  { s with
    err := s.err && !wdata.getLsbD 0
    cause := if wdata.getLsbD 0 then 0 else s.cause }

end Sys2Proof.Machine
end

