-- ==== Sys2Proof/WellFormed.lean ====
section
/-! DEFINITION. Well-formed operations: the operand values the encodings of spec/30_encoding.md rule R85 admit.
An operand narrower than its offset field is admitted whole; the three operands below are offsets that must be
multiples of the transfer size. -/

namespace Sys2Proof

/-- WR16.DATA is at 0x040 or 0x042; RD16.DIGEST at an even index; RD32.DIGEST at index 0 or 4 (R85). -/
def Instr.wf : Instr → Bool
  | .wr16Data lane _ => lane.toNat % 2 == 0
  | .rd16Digest k => k.toNat % 2 == 0
  | .rd32Digest k => k.toNat % 4 == 0
  | .rd32Id => true
  | .rd32Caps => true
  | .rd32Ctrl => true
  | .wr32Ctrl _ => true
  | .rd32Status => true
  | .wr32Status _ => true
  | .wr32Cmd _ => true
  | .rd32Cmd => true
  | .rd32Bytecount => true
  | .rd32Errinfo => true
  | .rd32PolyLo => true
  | .rd32PolyHi => true
  | .wr32PolyLo _ => true
  | .wr32PolyHi _ => true
  | .rd32SeedLo => true
  | .rd32SeedHi => true
  | .wr32SeedLo _ => true
  | .wr32SeedHi _ => true
  | .rd32XoroutLo => true
  | .rd32XoroutHi => true
  | .wr32XoroutLo _ => true
  | .wr32XoroutHi _ => true
  | .rd32AccLo => true
  | .rd32AccHi => true
  | .wr32AccLo _ => true
  | .wr32AccHi _ => true
  | .wr8Data _ _ => true
  | .wr32Data _ => true
  | .rd32Data => true
  | .rd32ResultLo => true
  | .rd32ResultHi => true
  | .rd8Digest _ => true
  | .rd32Table _ _ => true

end Sys2Proof
end

