-- ==== Sys2Proof/Decode.lean ====
section
/-! DEFINITION. The transaction word's fields (spec/30_encoding.md rule R80), the register map as decoding needs
it (spec/20_memory.md rules R56, R57), the decoder (R84 over the rows of R85; total, refusing RSV = 1 by name,
R89), and the encoder, written from the same rows. -/

namespace Sys2Proof

/-! ### Fields of the transaction word (R80, R81) -/

/-- `OFF`, bits 11:0. -/
def Transaction.off (t : Transaction) : Offset := t.tw.extractLsb' 0 12

/-- `RSV`, bit 12. -/
def Transaction.rsv (t : Transaction) : Bool := t.tw.getLsbD 12

/-- `SZ`, bits 14:13. -/
def Transaction.sz (t : Transaction) : BitVec 2 := t.tw.extractLsb' 13 2

/-- `W`, bit 15: a write. -/
def Transaction.isWrite (t : Transaction) : Bool := t.tw.getLsbD 15

/-- The size in bytes, `n = 2^SZ` (R81). -/
def Size.bytes : Size → Nat
  | .b1 => 1
  | .b2 => 2
  | .b4 => 4

/-- The size code of a size (R81). -/
def Size.code : Size → BitVec 2
  | .b1 => 0
  | .b2 => 1
  | .b4 => 2

/-- The size a code names; code 11 names none (R81). -/
def Size.ofCode (c : BitVec 2) : Option Size :=
  if c = 0 then some .b1
  else if c = 1 then some .b2
  else if c = 2 then some .b4
  else none

/-! ### The register map (R56, R57) -/

/-- The word offsets below the TABLE window and the register each holds; an offset that is not listed is
reserved. DIGEST fills two words. -/
def regMap : List (Offset × Reg) :=
  [(0x000, .id), (0x004, .caps), (0x008, .ctrl), (0x00C, .status), (0x010, .cmd), (0x014, .bytecount),
   (0x018, .errinfo), (0x020, .polyLo), (0x024, .polyHi), (0x028, .seedLo), (0x02C, .seedHi)] ++
  [(0x030, .xoroutLo), (0x034, .xoroutHi), (0x038, .accLo), (0x03C, .accHi), (0x040, .data),
   (0x048, .resultLo), (0x04C, .resultHi), (0x050, .digest), (0x054, .digest)]

/-- The register an offset lies in, by the 32-bit word that holds it (R57); none where the word is reserved. -/
def regAt (off : Offset) : Option Reg :=
  if 0x800 ≤ off.toNat then some .table
  else (regMap.find? (fun e => e.1 == off &&& 0xFFC)).map (·.2)

/-- The first offset of a register (R56). -/
def Reg.offset : Reg → Offset
  | .id => 0x000
  | .caps => 0x004
  | .ctrl => 0x008
  | .status => 0x00C
  | .cmd => 0x010
  | .bytecount => 0x014
  | .errinfo => 0x018
  | .polyLo => 0x020
  | .polyHi => 0x024
  | .seedLo => 0x028
  | .seedHi => 0x02C
  | .xoroutLo => 0x030
  | .xoroutHi => 0x034
  | .accLo => 0x038
  | .accHi => 0x03C
  | .data => 0x040
  | .resultLo => 0x048
  | .resultHi => 0x04C
  | .digest => 0x050
  | .table => 0x800

/-- The read-only registers, as R84 lists them. -/
def Reg.readOnly : Reg → Bool
  | .id => true
  | .caps => true
  | .bytecount => true
  | .errinfo => true
  | .resultLo => true
  | .resultHi => true
  | .digest => true
  | .table => true
  | .ctrl => false
  | .status => false
  | .cmd => false
  | .polyLo => false
  | .polyHi => false
  | .seedLo => false
  | .seedHi => false
  | .xoroutLo => false
  | .xoroutHi => false
  | .accLo => false
  | .accHi => false
  | .data => false

/-! ### The rows of R85 -/

/-- One row of the operation map: a word `tw` selects it when `tw AND mask = match`; `instr` reads the row's
operands from the transaction (R86). -/
structure Row where
  mnemonic : String
  pattern : Half
  mask : Half
  instr : Transaction → Instr

/-- `tw AND mask = match` (R85). -/
def Row.selects (r : Row) (tw : Half) : Bool := tw &&& r.mask == r.pattern

/-- Byte lane of a DATA write, `OFF[1:0]` (R86). -/
def Transaction.lane (t : Transaction) : BitVec 2 := t.tw.extractLsb' 0 2

/-- Digest index `k = OFF - 0x050`, the low three offset bits (R86). -/
def Transaction.digestIndex (t : Transaction) : BitVec 3 := t.tw.extractLsb' 0 3

/-- Table index `i = (OFF - 0x800) >> 3`, offset bits 10:3 (R86). -/
def Transaction.tableIndex (t : Transaction) : BitVec 8 := t.tw.extractLsb' 3 8

/-- Table half `h = OFF[2]` (R86). -/
def Transaction.tableHalf (t : Transaction) : BitVec 1 := t.tw.extractLsb' 2 1

/-- R85, the rows of identification, control, status and command. -/
def rowsControl : List Row :=
  [⟨"RD32.ID", 0x4000, 0xFFFF, fun _ => .rd32Id⟩,
   ⟨"RD32.CAPS", 0x4004, 0xFFFF, fun _ => .rd32Caps⟩,
   ⟨"RD32.CTRL", 0x4008, 0xFFFF, fun _ => .rd32Ctrl⟩,
   ⟨"WR32.CTRL", 0xC008, 0xFFFF, fun t => .wr32Ctrl t.wdata⟩,
   ⟨"RD32.STATUS", 0x400C, 0xFFFF, fun _ => .rd32Status⟩,
   ⟨"WR32.STATUS", 0xC00C, 0xFFFF, fun t => .wr32Status t.wdata⟩,
   ⟨"WR32.CMD", 0xC010, 0xFFFF, fun t => .wr32Cmd t.wdata⟩,
   ⟨"RD32.CMD", 0x4010, 0xFFFF, fun _ => .rd32Cmd⟩,
   ⟨"RD32.BYTECOUNT", 0x4014, 0xFFFF, fun _ => .rd32Bytecount⟩,
   ⟨"RD32.ERRINFO", 0x4018, 0xFFFF, fun _ => .rd32Errinfo⟩]

/-- R85, the rows of the 64-bit configuration registers' halves. -/
def rowsConfiguration : List Row :=
  [⟨"RD32.POLY_LO", 0x4020, 0xFFFF, fun _ => .rd32PolyLo⟩,
   ⟨"RD32.POLY_HI", 0x4024, 0xFFFF, fun _ => .rd32PolyHi⟩,
   ⟨"WR32.POLY_LO", 0xC020, 0xFFFF, fun t => .wr32PolyLo t.wdata⟩,
   ⟨"WR32.POLY_HI", 0xC024, 0xFFFF, fun t => .wr32PolyHi t.wdata⟩,
   ⟨"RD32.SEED_LO", 0x4028, 0xFFFF, fun _ => .rd32SeedLo⟩,
   ⟨"RD32.SEED_HI", 0x402C, 0xFFFF, fun _ => .rd32SeedHi⟩,
   ⟨"WR32.SEED_LO", 0xC028, 0xFFFF, fun t => .wr32SeedLo t.wdata⟩,
   ⟨"WR32.SEED_HI", 0xC02C, 0xFFFF, fun t => .wr32SeedHi t.wdata⟩,
   ⟨"RD32.XOROUT_LO", 0x4030, 0xFFFF, fun _ => .rd32XoroutLo⟩,
   ⟨"RD32.XOROUT_HI", 0x4034, 0xFFFF, fun _ => .rd32XoroutHi⟩,
   ⟨"WR32.XOROUT_LO", 0xC030, 0xFFFF, fun t => .wr32XoroutLo t.wdata⟩,
   ⟨"WR32.XOROUT_HI", 0xC034, 0xFFFF, fun t => .wr32XoroutHi t.wdata⟩,
   ⟨"RD32.ACC_LO", 0x4038, 0xFFFF, fun _ => .rd32AccLo⟩,
   ⟨"RD32.ACC_HI", 0x403C, 0xFFFF, fun _ => .rd32AccHi⟩,
   ⟨"WR32.ACC_LO", 0xC038, 0xFFFF, fun t => .wr32AccLo t.wdata⟩,
   ⟨"WR32.ACC_HI", 0xC03C, 0xFFFF, fun t => .wr32AccHi t.wdata⟩]

/-- R85, the rows of message bytes, results and the table window. -/
def rowsDatapath : List Row :=
  [⟨"WR8.DATA", 0x8040, 0xFFFC, fun t => .wr8Data t.lane t.wdata⟩,
   ⟨"WR16.DATA", 0xA040, 0xFFFD, fun t => .wr16Data t.lane t.wdata⟩,
   ⟨"WR32.DATA", 0xC040, 0xFFFF, fun t => .wr32Data t.wdata⟩,
   ⟨"RD32.DATA", 0x4040, 0xFFFF, fun _ => .rd32Data⟩,
   ⟨"RD32.RESULT_LO", 0x4048, 0xFFFF, fun _ => .rd32ResultLo⟩,
   ⟨"RD32.RESULT_HI", 0x404C, 0xFFFF, fun _ => .rd32ResultHi⟩,
   ⟨"RD8.DIGEST", 0x0050, 0xFFF8, fun t => .rd8Digest t.digestIndex⟩,
   ⟨"RD16.DIGEST", 0x2050, 0xFFF9, fun t => .rd16Digest t.digestIndex⟩,
   ⟨"RD32.DIGEST", 0x4050, 0xFFFB, fun t => .rd32Digest t.digestIndex⟩,
   ⟨"RD32.TABLE", 0x4800, 0xF803, fun t => .rd32Table t.tableIndex t.tableHalf⟩]

/-- The operation map of R85: 36 rows. -/
def rows : List Row := rowsControl ++ rowsConfiguration ++ rowsDatapath

/-- The operation of the row a transaction selects, if any (R85). -/
def selectRow (t : Transaction) : Option Instr :=
  (rows.find? (·.selects t.tw)).map (·.instr t)

/-! ### The decoder (R84) -/

/-- R84, test by test in its order: the order is the priority of the causes (R203). A word with RSV = 1 is refused by
name (R89; log entry 18). -/
def decode (t : Transaction) : Decoded :=
  if t.rsv then .notATransaction
  else match Size.ofCode t.sz with
    | none => .busError .badSz64
    | some n =>
      match regAt t.off with
      | none => .busError .unmapped
      | some r =>
        if t.off.toNat % n.bytes ≠ 0 then .busError .misaligned
        else if t.isWrite && r.readOnly then .busError .readOnly
        else match selectRow t with
          | none => .busError .badSize
          | some i => .op i

/-! ### The encoder -/

/-- The transaction word of an operation (R85, R86). -/
def Instr.word : Instr → Half
  | .rd32Id => 0x4000
  | .rd32Caps => 0x4004
  | .rd32Ctrl => 0x4008
  | .wr32Ctrl _ => 0xC008
  | .rd32Status => 0x400C
  | .wr32Status _ => 0xC00C
  | .wr32Cmd _ => 0xC010
  | .rd32Cmd => 0x4010
  | .rd32Bytecount => 0x4014
  | .rd32Errinfo => 0x4018
  | .rd32PolyLo => 0x4020
  | .rd32PolyHi => 0x4024
  | .wr32PolyLo _ => 0xC020
  | .wr32PolyHi _ => 0xC024
  | .rd32SeedLo => 0x4028
  | .rd32SeedHi => 0x402C
  | .wr32SeedLo _ => 0xC028
  | .wr32SeedHi _ => 0xC02C
  | .rd32XoroutLo => 0x4030
  | .rd32XoroutHi => 0x4034
  | .wr32XoroutLo _ => 0xC030
  | .wr32XoroutHi _ => 0xC034
  | .rd32AccLo => 0x4038
  | .rd32AccHi => 0x403C
  | .wr32AccLo _ => 0xC038
  | .wr32AccHi _ => 0xC03C
  | .wr8Data lane _ => 0x8040 ||| lane.setWidth 16
  | .wr16Data lane _ => 0xA040 ||| lane.setWidth 16
  | .wr32Data _ => 0xC040
  | .rd32Data => 0x4040
  | .rd32ResultLo => 0x4048
  | .rd32ResultHi => 0x404C
  | .rd8Digest k => 0x0050 ||| k.setWidth 16
  | .rd16Digest k => 0x2050 ||| k.setWidth 16
  | .rd32Digest k => 0x4050 ||| k.setWidth 16
  | .rd32Table i h => 0x4800 ||| (i.setWidth 16 <<< 3) ||| (h.setWidth 16 <<< 2)

/-- The write data of an operation; a read has none and carries 0 (R80; log entry 15). -/
def Instr.writeData : Instr → Word
  | .wr32Ctrl v => v
  | .wr32Status v => v
  | .wr32Cmd v => v
  | .wr32PolyLo v => v
  | .wr32PolyHi v => v
  | .wr32SeedLo v => v
  | .wr32SeedHi v => v
  | .wr32XoroutLo v => v
  | .wr32XoroutHi v => v
  | .wr32AccLo v => v
  | .wr32AccHi v => v
  | .wr8Data _ v => v
  | .wr16Data _ v => v
  | .wr32Data v => v
  | .rd32Id => 0
  | .rd32Caps => 0
  | .rd32Ctrl => 0
  | .rd32Status => 0
  | .rd32Cmd => 0
  | .rd32Bytecount => 0
  | .rd32Errinfo => 0
  | .rd32PolyLo => 0
  | .rd32PolyHi => 0
  | .rd32SeedLo => 0
  | .rd32SeedHi => 0
  | .rd32XoroutLo => 0
  | .rd32XoroutHi => 0
  | .rd32AccLo => 0
  | .rd32AccHi => 0
  | .rd32Data => 0
  | .rd32ResultLo => 0
  | .rd32ResultHi => 0
  | .rd8Digest _ => 0
  | .rd16Digest _ => 0
  | .rd32Digest _ => 0
  | .rd32Table _ _ => 0

/-- The transaction that spells an operation (R80, R85). -/
def encode (i : Instr) : Transaction := ⟨i.word, i.writeData⟩

/-! ### Words numbered as the opcode table numbers them -/

/-- The transaction in the low `nbits` bits of `w`: bits 15:0 are the transaction word, the write data's bits
count on from 16; every bit above `nbits` is 0. -/
def tableTransaction (nbits w : Nat) : Transaction :=
  let v := w % 2 ^ nbits
  ⟨BitVec.ofNat 16 v, BitVec.ofNat 32 (v / 2 ^ 16)⟩

/-- The operation the decoder reads from an opcode-table word. -/
def decodeTableWord (nbits w : Nat) : Option Instr :=
  match decode (tableTransaction nbits w) with
  | .op i => some i
  | .busError _ => none
  | .notATransaction => none

end Sys2Proof
end

