-- ==== Sys2Proof/Machine/Operands.lean ====
section
/-! DEFINITION. Operand forms: halves of a 64-bit register (spec/00_scope.md rule R9), bytes of a write value
(spec/30_encoding.md rule R82), digest bytes and their packing (spec/41_digest.md rules R138, R141 to R143), and
the host-side primitives BusRead, BusWrite and BASE + off (R10, R66). -/

namespace Sys2Proof.Machine

/-- Bits 31:0 of a 64-bit register (R9). -/
def loHalf (v : DWord) : Word := v.extractLsb' 0 32

/-- Bits 63:32 of a 64-bit register (R9). -/
def hiHalf (v : DWord) : Word := v.extractLsb' 32 32

/-- `{v[63:32], w}` (R172 and its like): the low half replaced. -/
def withLo (v : DWord) (w : Word) : DWord := hiHalf v ++ w

/-- `{w, v[31:0]}` (R173 and its like): the high half replaced. -/
def withHi (v : DWord) (w : Word) : DWord := w ++ loHalf v

/-- Byte `j` of a write value, bits `8j+7:8j` (R53, R82). -/
def byteOf (wdata : Word) (j : Nat) : Byte := wdata.extractLsb' (8 * j) 8

/-- The bytes of an `n`-byte write value in ascending address order (R82, R133). -/
def dataBytes (n : Size) (wdata : Word) : List Byte := (List.range n.bytes).map (byteOf wdata)

/-- Digest byte `D[k] = R[63-8k : 56-8k]` (R138). -/
def digestByte (R : DWord) (k : Nat) : Byte := R.extractLsb' (56 - 8 * k) 8

/-- Bytes packed with the first in bits 7:0, the second in bits 15:8 and so on, zero-extended (R53, R83). -/
def packBytes (bs : List Byte) : Word := bs.foldr (fun b acc => (acc <<< 8) ||| b.setWidth 32) 0

/-- The value an `n`-byte read of DIGEST at index `k` returns (R141, R142, R143). -/
def digestRead (n : Size) (R : DWord) (k : BitVec 3) : Word :=
  packBytes ((List.range n.bytes).map fun j => digestByte R (k.toNat + j))

/-! ### Host-side primitives -/

/-- `BusRead(off, n)` (R10) as a transaction (R80). -/
def busRead (off : Offset) (n : Size) : Transaction := ⟨0#1 ++ n.code ++ 0#1 ++ off, 0⟩

/-- `BusWrite(off, n, v)` (R10) as a transaction (R80). -/
def busWrite (off : Offset) (n : Size) (v : Word) : Transaction := ⟨1#1 ++ n.code ++ 0#1 ++ off, v⟩

/-- The window offset of a host byte address: the host reaches a register at `BASE + off` (R66); an address
outside the window never reaches the block (R50; log entry 13). -/
def windowOffset (addr : Nat) : Option Offset :=
  if Config.base ≤ addr ∧ addr < Config.base + Config.win then some (BitVec.ofNat 12 (addr - Config.base))
  else none

end Sys2Proof.Machine
end

