-- ==== Sys2Proof/Machine/Table.lean ====
section
/-! DEFINITION. The lookup table as a function of the polynomial and the bit order (spec/40_table.md rules R110,
R111), the fold of one byte (spec/41_digest.md rules R130, R131), the equivalent bit-serial step (R117), the fold
of a datapath that reads a table RAM (R38, R113), and the CRC of a message (R137). -/

namespace Sys2Proof.Machine

/-- One shift step of the reflected order (R110): shift right, XOR `P` in when the bit shifted out is 1. -/
def shiftStepReflected (P c : DWord) : DWord :=
  if c.getLsbD 0 then (c >>> 1) ^^^ P else c >>> 1

/-- One shift step of the MSB-first order (R111, UNVERIFIED: the spec's general knowledge, log entry 9): shift left,
XOR `P` in when the bit shifted out is 1. -/
def shiftStepNormal (P c : DWord) : DWord :=
  if c.getLsbD 63 then (c <<< 1) ^^^ P else c <<< 1

/-- The shift step of bit order `r`. -/
def shiftStep (P : DWord) (r : Bool) (c : DWord) : DWord :=
  if r then shiftStepReflected P c else shiftStepNormal P c

/-- A byte where the bit order lets it enter the accumulator: the low end in the reflected order (R110), the high
end in the MSB-first order (R111). -/
def enterByte (r : Bool) (b : Byte) : DWord :=
  if r then b.setWidth 64 else b.setWidth 64 <<< 56

/-- Eight shift steps (R110, R111, `repeat 8`). -/
def shiftStep8 (P : DWord) (r : Bool) (c : DWord) : DWord := (shiftStep P r)^[8] c

/-- `TABLE(P, r)[i]` (R110 for `r` true, R111 for `r` false). -/
def tableEntry (P : DWord) (r : Bool) (i : Byte) : DWord := shiftStep8 P r (enterByte r i)

/-- All 256 entries, as the table builder writes them to the table RAM (R38). -/
def fullTable (P : DWord) (r : Bool) : Vector DWord 256 :=
  Vector.ofFn fun i => tableEntry P r (BitVec.ofNat 8 i.val)

/-- The table index of a fold: `(a XOR b)[7:0]` (R130) or `a[63:56] XOR b` (R131). -/
def foldIndex (r : Bool) (a : DWord) (b : Byte) : Byte :=
  if r then (a ^^^ b.setWidth 64).extractLsb' 0 8 else a.extractLsb' 56 8 ^^^ b

/-- The accumulator shifted by a byte: right in the reflected order, left in the MSB-first order (R130, R131). -/
def shiftByte (r : Bool) (a : DWord) : DWord := if r then a >>> 8 else a <<< 8

/-- `foldR` (R130, `r` true) and `foldN` (R131, `r` false): one message byte into the accumulator. -/
def fold (P : DWord) (r : Bool) (a : DWord) (b : Byte) : DWord :=
  shiftByte r a ^^^ tableEntry P r (foldIndex r a b)

/-- The bit-serial form of a fold (R117): the byte enters, then eight single-bit steps. -/
def foldSerial (P : DWord) (r : Bool) (a : DWord) (b : Byte) : DWord :=
  shiftStep8 P r (a ^^^ enterByte r b)

/-- The fold of a datapath that looks the entry up in a table RAM (R38, R113). -/
def foldFromRam (ram : Vector DWord 256) (r : Bool) (a : DWord) (b : Byte) : DWord :=
  shiftByte r a ^^^ ram[(foldIndex r a b).toFin]

/-- The bytes of a message folded in index order from `a` (R11, R132). -/
def foldMessage (P : DWord) (r : Bool) (a : DWord) (m : List Byte) : DWord := m.foldl (fold P r) a

/-- The document's function (R137): reflected, polynomial 0xC96C5795D7870F42, zero start value. -/
def crc64 (m : List Byte) : DWord := foldMessage 0xC96C5795D7870F42 true 0 m

end Sys2Proof.Machine
end

