-- ==== Sys2Proof/Machine/Ops.lean ====
section
/-! DEFINITION. The shared operations: answering a transaction (spec/30_encoding.md rule R83), taking a bus error
(spec/60_exceptions.md rule R202), the table builder and the hold it causes (R39, R115, R236), reset (R230, R231,
R233), and folding bytes (R132, R133). -/

namespace Sys2Proof.Machine

/-! ### Responses -/

/-- The block answers: the response is appended to those given. -/
def State.respond (r : Response) (s : State) : State := { s with responses := s.responses ++ [r] }

/-- `return OKAY(v)` of a read. -/
def readOkay (v : Word) (s : State) : Host.Outcome State Fault Refusal := .next (s.respond ⟨.okay, some v⟩)

/-- `return OKAY` of a write. -/
def writeOkay (s : State) : Host.Outcome State Fault Refusal := .next (s.respond ⟨.okay, none⟩)

/-! ### Bus errors: the block's only exception -/

/-- `raise BusError(c)` (R202): the record, then SLVERR, with `rdata` 0 for a read (R83). -/
def busError (c : BusCause) (t : Transaction) (s : State) : State :=
  (recordError c t.tw s).respond ⟨.slverr, if t.isWrite then none else some 0⟩

/-! ### The table builder -/

/-- A change of POLY or CTRL.REFLECT starts a build in a block with a table RAM (R39, R115): BUILDING rises and
the RAM's contents are a free value until it falls (R41; log entries 6, 7). -/
def State.startBuild (changed : Bool) (s : State) : State :=
  { s with
    building := s.building || (changed && s.tableRam.isSome)
    tableRam := if changed then s.tableRam.map (fun _ => Config.ramWhileBuilding s.ramDraws) else s.tableRam
    ramDraws := if changed && s.tableRam.isSome then s.ramDraws + 1 else s.ramDraws }

/-- The hold before a transaction (R236; log entry 4): the builder, if it is running, writes every entry from the present POLY
and CTRL.REFLECT and BUILDING falls (R38, R39). No value outside the RAM and BUILDING changes. -/
def State.hold (s : State) : State :=
  { s with
    building := false
    tableRam := if s.building then s.tableRam.map (fun _ => fullTable s.poly s.reflect) else s.tableRam }

/-- `POLY <- P`; through it the table (R115, R172, R173). -/
def State.setPoly (P : DWord) (s : State) : State := ({ s with poly := P }).startBuild (P != s.poly)

/-- `CTRL.REFLECT <- r`; through it the table (R115, R163). -/
def State.setReflect (r : Bool) (s : State) : State := ({ s with reflect := r }).startBuild (r != s.reflect)

/-! ### Reset -/

/-- Every state of R20 to its value in R41 (R230, R233); a table build starts in a block with a table RAM. The
model's own fields stay: what the host has issued and been answered is not the block's state. -/
def State.resetBlock (s : State) : State :=
  { State.reset with
    building := s.tableRam.isSome
    tableRam := s.tableRam.map (fun _ => Config.ramWhileBuilding s.ramDraws)
    ramDraws := if s.tableRam.isSome then s.ramDraws + 1 else s.ramDraws
    pending := s.pending
    responses := s.responses }

/-- `CMD.INIT` (R166): `ACC <- SEED`, `BYTECOUNT <- 0`. -/
def State.initMessage (s : State) : State := { s with acc := s.seed, bytecount := 0 }

/-- The effect of a CMD write (R166): SRST takes precedence over INIT; other bits are ignored. -/
def State.command (wdata : Word) (s : State) : State :=
  if wdata.getLsbD 1 then s.resetBlock else if wdata.getLsbD 0 then s.initMessage else s

/-! ### Folding -/

/-- `Fold(b)` (R132): the fold under POLY and CTRL.REFLECT as they stand, and the byte counted modulo 2^32. -/
def State.foldByte (s : State) (b : Byte) : State :=
  { s with acc := fold s.poly s.reflect s.acc b, bytecount := s.bytecount + 1 }

/-- The bytes of a write folded in order, as one event (R133). -/
def State.foldBytes (s : State) (bs : List Byte) : State := bs.foldl State.foldByte s

/-- The result `R = ACC XOR XOROUT` (R35). -/
def State.result (s : State) : DWord := s.acc ^^^ s.xorout

end Sys2Proof.Machine
end

