-- ==== Sys2Proof/Machine/Configuration.lean ====
section
/-! DEFINITION. The two halves of the 64-bit registers POLY, SEED, XOROUT and ACC (spec/42_control.md rules R170 to
R185). A write of one half leaves the other as it was (R235); only POLY's writes reach the table (R115). -/

namespace Sys2Proof.Machine

/-- RD32.POLY_LO (R170). -/
def execRd32PolyLo (s : State) : Host.Outcome State Fault Refusal := readOkay (loHalf s.poly) s

/-- RD32.POLY_HI (R171). -/
def execRd32PolyHi (s : State) : Host.Outcome State Fault Refusal := readOkay (hiHalf s.poly) s

/-- WR32.POLY_LO (R172). -/
def execWr32PolyLo (wdata : Word) (s : State) : Host.Outcome State Fault Refusal :=
  writeOkay (s.setPoly (withLo s.poly wdata))

/-- WR32.POLY_HI (R173). -/
def execWr32PolyHi (wdata : Word) (s : State) : Host.Outcome State Fault Refusal :=
  writeOkay (s.setPoly (withHi s.poly wdata))

/-- RD32.SEED_LO (R174). -/
def execRd32SeedLo (s : State) : Host.Outcome State Fault Refusal := readOkay (loHalf s.seed) s

/-- RD32.SEED_HI (R175). -/
def execRd32SeedHi (s : State) : Host.Outcome State Fault Refusal := readOkay (hiHalf s.seed) s

/-- WR32.SEED_LO (R176). -/
def execWr32SeedLo (wdata : Word) (s : State) : Host.Outcome State Fault Refusal :=
  writeOkay { s with seed := withLo s.seed wdata }

/-- WR32.SEED_HI (R177). -/
def execWr32SeedHi (wdata : Word) (s : State) : Host.Outcome State Fault Refusal :=
  writeOkay { s with seed := withHi s.seed wdata }

/-- RD32.XOROUT_LO (R178). -/
def execRd32XoroutLo (s : State) : Host.Outcome State Fault Refusal := readOkay (loHalf s.xorout) s

/-- RD32.XOROUT_HI (R179). -/
def execRd32XoroutHi (s : State) : Host.Outcome State Fault Refusal := readOkay (hiHalf s.xorout) s

/-- WR32.XOROUT_LO (R180). -/
def execWr32XoroutLo (wdata : Word) (s : State) : Host.Outcome State Fault Refusal :=
  writeOkay { s with xorout := withLo s.xorout wdata }

/-- WR32.XOROUT_HI (R181). -/
def execWr32XoroutHi (wdata : Word) (s : State) : Host.Outcome State Fault Refusal :=
  writeOkay { s with xorout := withHi s.xorout wdata }

/-- RD32.ACC_LO (R182). -/
def execRd32AccLo (s : State) : Host.Outcome State Fault Refusal := readOkay (loHalf s.acc) s

/-- RD32.ACC_HI (R183). -/
def execRd32AccHi (s : State) : Host.Outcome State Fault Refusal := readOkay (hiHalf s.acc) s

/-- WR32.ACC_LO (R184). -/
def execWr32AccLo (wdata : Word) (s : State) : Host.Outcome State Fault Refusal :=
  writeOkay { s with acc := withLo s.acc wdata }

/-- WR32.ACC_HI (R185). -/
def execWr32AccHi (wdata : Word) (s : State) : Host.Outcome State Fault Refusal :=
  writeOkay { s with acc := withHi s.acc wdata }

end Sys2Proof.Machine
end

