-- ==== Sys2Proof/Machine/Control.lean ====
section
/-! DEFINITION. Identification, control, status, command and counter operations (spec/42_control.md rules R160 to
R169). -/

namespace Sys2Proof.Machine

/-- The constant ID reads as (R23, R160): "CR64" in ASCII, "C" at offset 0. -/
def idWord : Word := 0x34365243

/-- CAPS of an implementation: `{16'h0000, 8'h40, 2'b00, log2(LANES)[1:0], 3'b000, STRATEGY}` (R24, R161). -/
def capsWord (impl : Impl) (lanes : Lanes) : Word :=
  0#16 ++ 0x40#8 ++ 0#2 ++ lanes.log2 ++ 0#3 ++ impl.strategy

/-- RD32.ID (R160). -/
def execRd32Id (s : State) : Host.Outcome State Fault Refusal := readOkay idWord s

/-- RD32.CAPS (R161). -/
def execRd32Caps (s : State) : Host.Outcome State Fault Refusal :=
  readOkay (capsWord Config.impl Config.lanes) s

/-- RD32.CTRL (R162). -/
def execRd32Ctrl (s : State) : Host.Outcome State Fault Refusal := readOkay (ctrlWord s) s

/-- WR32.CTRL (R163): bit 0 to REFLECT, bits 31:1 ignored. -/
def execWr32Ctrl (wdata : Word) (s : State) : Host.Outcome State Fault Refusal :=
  writeOkay (s.setReflect (wdata.getLsbD 0))

/-- RD32.STATUS (R164). -/
def execRd32Status (s : State) : Host.Outcome State Fault Refusal := readOkay (statusWord s) s

/-- WR32.STATUS (R165). -/
def execWr32Status (wdata : Word) (s : State) : Host.Outcome State Fault Refusal :=
  writeOkay (clearStatus wdata s)

/-- WR32.CMD (R166). -/
def execWr32Cmd (wdata : Word) (s : State) : Host.Outcome State Fault Refusal := writeOkay (s.command wdata)

/-- RD32.CMD (R167): the write-only port reads 0 and performs no command. -/
def execRd32Cmd (s : State) : Host.Outcome State Fault Refusal := readOkay 0 s

/-- RD32.BYTECOUNT (R168). -/
def execRd32Bytecount (s : State) : Host.Outcome State Fault Refusal := readOkay s.bytecount s

/-- RD32.ERRINFO (R169). -/
def execRd32Errinfo (s : State) : Host.Outcome State Fault Refusal := readOkay (errinfoWord s) s

end Sys2Proof.Machine
end

