-- ==== Sys2Proof/Machine/Digest.lean ====
section
/-! DEFINITION. Message bytes, results, digest bytes and table entries (spec/41_digest.md rules R133 to R144,
spec/40_table.md rule R114). -/

namespace Sys2Proof.Machine

/-- WR8.DATA (R134): folds `wdata[7:0]`, whatever the lane. -/
def execWr8Data (_lane : BitVec 2) (wdata : Word) (s : State) : Host.Outcome State Fault Refusal :=
  writeOkay (s.foldBytes (dataBytes .b1 wdata))

/-- WR16.DATA (R135): folds `wdata[7:0]` then `wdata[15:8]`, whatever the half. -/
def execWr16Data (_lane : BitVec 2) (wdata : Word) (s : State) : Host.Outcome State Fault Refusal :=
  writeOkay (s.foldBytes (dataBytes .b2 wdata))

/-- WR32.DATA (R136): folds the four bytes, bits 7:0 first. -/
def execWr32Data (wdata : Word) (s : State) : Host.Outcome State Fault Refusal :=
  writeOkay (s.foldBytes (dataBytes .b4 wdata))

/-- RD32.DATA (R144): the write-only port reads 0 and folds nothing. -/
def execRd32Data (s : State) : Host.Outcome State Fault Refusal := readOkay 0 s

/-- RD32.RESULT_LO (R139). -/
def execRd32ResultLo (s : State) : Host.Outcome State Fault Refusal := readOkay (loHalf s.result) s

/-- RD32.RESULT_HI (R140). -/
def execRd32ResultHi (s : State) : Host.Outcome State Fault Refusal := readOkay (hiHalf s.result) s

/-- RD8.DIGEST (R141). -/
def execRd8Digest (k : BitVec 3) (s : State) : Host.Outcome State Fault Refusal :=
  readOkay (digestRead .b1 s.result k) s

/-- RD16.DIGEST (R142). -/
def execRd16Digest (k : BitVec 3) (s : State) : Host.Outcome State Fault Refusal :=
  readOkay (digestRead .b2 s.result k) s

/-- RD32.DIGEST (R143). -/
def execRd32Digest (k : BitVec 3) (s : State) : Host.Outcome State Fault Refusal :=
  readOkay (digestRead .b4 s.result k) s

/-- RD32.TABLE (R114): half `h` of entry `i` of the table of the present POLY and CTRL.REFLECT (log entry 8). -/
def execRd32Table (i : BitVec 8) (h : BitVec 1) (s : State) : Host.Outcome State Fault Refusal :=
  readOkay (if h = 0 then loHalf (tableEntry s.poly s.reflect i) else hiHalf (tableEntry s.poly s.reflect i)) s

end Sys2Proof.Machine
end

