-- ==== Sys2Proof/Machine/Dispatch.lean ====
section
/-! DEFINITION. One arm per operation of the map (spec/30_encoding.md rule R85), each one direct call of its
meaning. -/

namespace Sys2Proof.Machine

/-- The effect of one decoded transaction. -/
def exec (i : Instr) (s : State) : Host.Outcome State Fault Refusal :=
  match i with
  | .rd32Id => Sys2Proof.Machine.execRd32Id s
  | .rd32Caps => Sys2Proof.Machine.execRd32Caps s
  | .rd32Ctrl => Sys2Proof.Machine.execRd32Ctrl s
  | .wr32Ctrl wdata => Sys2Proof.Machine.execWr32Ctrl wdata s
  | .rd32Status => Sys2Proof.Machine.execRd32Status s
  | .wr32Status wdata => Sys2Proof.Machine.execWr32Status wdata s
  | .wr32Cmd wdata => Sys2Proof.Machine.execWr32Cmd wdata s
  | .rd32Cmd => Sys2Proof.Machine.execRd32Cmd s
  | .rd32Bytecount => Sys2Proof.Machine.execRd32Bytecount s
  | .rd32Errinfo => Sys2Proof.Machine.execRd32Errinfo s
  | .rd32PolyLo => Sys2Proof.Machine.execRd32PolyLo s
  | .rd32PolyHi => Sys2Proof.Machine.execRd32PolyHi s
  | .wr32PolyLo wdata => Sys2Proof.Machine.execWr32PolyLo wdata s
  | .wr32PolyHi wdata => Sys2Proof.Machine.execWr32PolyHi wdata s
  | .rd32SeedLo => Sys2Proof.Machine.execRd32SeedLo s
  | .rd32SeedHi => Sys2Proof.Machine.execRd32SeedHi s
  | .wr32SeedLo wdata => Sys2Proof.Machine.execWr32SeedLo wdata s
  | .wr32SeedHi wdata => Sys2Proof.Machine.execWr32SeedHi wdata s
  | .rd32XoroutLo => Sys2Proof.Machine.execRd32XoroutLo s
  | .rd32XoroutHi => Sys2Proof.Machine.execRd32XoroutHi s
  | .wr32XoroutLo wdata => Sys2Proof.Machine.execWr32XoroutLo wdata s
  | .wr32XoroutHi wdata => Sys2Proof.Machine.execWr32XoroutHi wdata s
  | .rd32AccLo => Sys2Proof.Machine.execRd32AccLo s
  | .rd32AccHi => Sys2Proof.Machine.execRd32AccHi s
  | .wr32AccLo wdata => Sys2Proof.Machine.execWr32AccLo wdata s
  | .wr32AccHi wdata => Sys2Proof.Machine.execWr32AccHi wdata s
  | .wr8Data lane wdata => Sys2Proof.Machine.execWr8Data lane wdata s
  | .wr16Data lane wdata => Sys2Proof.Machine.execWr16Data lane wdata s
  | .wr32Data wdata => Sys2Proof.Machine.execWr32Data wdata s
  | .rd32Data => Sys2Proof.Machine.execRd32Data s
  | .rd32ResultLo => Sys2Proof.Machine.execRd32ResultLo s
  | .rd32ResultHi => Sys2Proof.Machine.execRd32ResultHi s
  | .rd8Digest k => Sys2Proof.Machine.execRd8Digest k s
  | .rd16Digest k => Sys2Proof.Machine.execRd16Digest k s
  | .rd32Digest k => Sys2Proof.Machine.execRd32Digest k s
  | .rd32Table index half => Sys2Proof.Machine.execRd32Table index half s

end Sys2Proof.Machine
end

