-- ==== Sys2Proof/Machine/Port.lean ====
section
/-! DEFINITION. The register port (spec/20_memory.md rule R60): what taking one bus event does. -/

namespace Sys2Proof.Machine

/-- One transaction: an operation's effect, a bus error's effect (R84, R202), or, for a word that is no
transaction, a refusal by name (R89). -/
def runTransaction (t : Transaction) (s : State) : Host.Outcome State Fault Refusal :=
  match decode t with
  | .op i => exec i s
  | .busError c => .next (busError c t s)
  | .notATransaction => .refused .notATransaction

/-- One bus event. A transaction is held until the table build is done (R236), then runs. Reset sets every state
of the block and gives no response; a transaction in progress is abandoned without effect (R230, R231). -/
def runEvent (e : HostEvent) (s : State) : Host.Outcome State Fault Refusal :=
  match e with
  | .transaction t => runTransaction t s.hold
  | .reset _ => .next s.resetBlock

/-- With no event pending nothing happens but the end of a table build (R39; log entry 2). -/
def idle (s : State) : Host.Outcome State Fault Refusal := .next s.hold

/-- The host issues the transaction in an opcode-table word next, before what is pending (log entry 12). -/
def issueWord (s : State) (nbits w : Nat) : State :=
  { s with pending := .transaction (tableTransaction nbits w) :: s.pending }

end Sys2Proof.Machine
end

