-- ==== Sys2Proof/Machine/Step.lean ====
section
/-! DEFINITION. One step: the oldest pending bus event is taken (spec/20_memory.md rule R60: "Transactions take
effect one at a time, in the order the host issues them."). -/

namespace Sys2Proof.Machine

/-- One step of the machine. -/
def step (s : State) : Host.Outcome State Fault Refusal :=
  match s.pending with
  | [] => idle s
  | e :: rest => runEvent e { s with pending := rest }

/-- The state in which the very next step runs the instruction of an opcode-table word (log entry 12). -/
def State.withFetchWord (s : State) (nbits w : Nat) : State := issueWord s nbits w

end Sys2Proof.Machine
end

