-- ==== Sys2Proof/Machine/Assembler.lean ====
section
/-! DEFINITION. The notation of transactions (spec/30_encoding.md rule R91) as data, its mnemonics and text, and the
pseudo-instructions with their expansions (R92). -/

namespace Sys2Proof.Machine

/-- `RDn <reg>[+k]` where `value` is none, `WRn <reg>[+k], <value>` where it is some (R91; log entry 17). -/
structure Asm where
  size : Size
  reg : Reg
  plus : Offset
  value : Option Word
  deriving DecidableEq, Repr

/-- The transaction a line of notation stands for (R91): the register's name stands for its offset, `+k` adds a byte
offset. DESIGN CHOICE (log entry 20): where `<reg>+k` leaves the 4096-byte window, R91 says nothing and the sum wraps
in the 12 offset bits, so `TABLE+0x800` is offset 0x000. -/
def Asm.assemble (a : Asm) : Transaction :=
  match a.value with
  | none => busRead (a.reg.offset + a.plus) a.size
  | some v => busWrite (a.reg.offset + a.plus) a.size v

/-- A read line of a 32-bit register. -/
def Asm.rd32 (r : Reg) : Asm := ⟨.b4, r, 0, none⟩

/-- A write line of a 32-bit register. -/
def Asm.wr32 (r : Reg) (v : Word) : Asm := ⟨.b4, r, 0, some v⟩

/-- The line of notation of an operation (R86, R91). -/
def asmOf : Instr → Asm
  | .rd32Id => .rd32 .id
  | .rd32Caps => .rd32 .caps
  | .rd32Ctrl => .rd32 .ctrl
  | .wr32Ctrl v => .wr32 .ctrl v
  | .rd32Status => .rd32 .status
  | .wr32Status v => .wr32 .status v
  | .wr32Cmd v => .wr32 .cmd v
  | .rd32Cmd => .rd32 .cmd
  | .rd32Bytecount => .rd32 .bytecount
  | .rd32Errinfo => .rd32 .errinfo
  | .rd32PolyLo => .rd32 .polyLo
  | .rd32PolyHi => .rd32 .polyHi
  | .wr32PolyLo v => .wr32 .polyLo v
  | .wr32PolyHi v => .wr32 .polyHi v
  | .rd32SeedLo => .rd32 .seedLo
  | .rd32SeedHi => .rd32 .seedHi
  | .wr32SeedLo v => .wr32 .seedLo v
  | .wr32SeedHi v => .wr32 .seedHi v
  | .rd32XoroutLo => .rd32 .xoroutLo
  | .rd32XoroutHi => .rd32 .xoroutHi
  | .wr32XoroutLo v => .wr32 .xoroutLo v
  | .wr32XoroutHi v => .wr32 .xoroutHi v
  | .rd32AccLo => .rd32 .accLo
  | .rd32AccHi => .rd32 .accHi
  | .wr32AccLo v => .wr32 .accLo v
  | .wr32AccHi v => .wr32 .accHi v
  | .wr8Data lane v => ⟨.b1, .data, lane.setWidth 12, some v⟩
  | .wr16Data lane v => ⟨.b2, .data, lane.setWidth 12, some v⟩
  | .wr32Data v => .wr32 .data v
  | .rd32Data => .rd32 .data
  | .rd32ResultLo => .rd32 .resultLo
  | .rd32ResultHi => .rd32 .resultHi
  | .rd8Digest k => ⟨.b1, .digest, k.setWidth 12, none⟩
  | .rd16Digest k => ⟨.b2, .digest, k.setWidth 12, none⟩
  | .rd32Digest k => ⟨.b4, .digest, k.setWidth 12, none⟩
  | .rd32Table i h => ⟨.b4, .table, (i.setWidth 12 <<< 3) ||| (h.setWidth 12 <<< 2), none⟩

/-- The register names of R56. -/
def regName : Reg → String
  | .id => "ID"
  | .caps => "CAPS"
  | .ctrl => "CTRL"
  | .status => "STATUS"
  | .cmd => "CMD"
  | .bytecount => "BYTECOUNT"
  | .errinfo => "ERRINFO"
  | .polyLo => "POLY_LO"
  | .polyHi => "POLY_HI"
  | .seedLo => "SEED_LO"
  | .seedHi => "SEED_HI"
  | .xoroutLo => "XOROUT_LO"
  | .xoroutHi => "XOROUT_HI"
  | .accLo => "ACC_LO"
  | .accHi => "ACC_HI"
  | .data => "DATA"
  | .resultLo => "RESULT_LO"
  | .resultHi => "RESULT_HI"
  | .digest => "DIGEST"
  | .table => "TABLE"

/-- `RDn` or `WRn` (R91). -/
def Asm.verb (a : Asm) : String :=
  (if a.value.isSome then "WR" else "RD") ++
    (match a.size with
      | .b1 => "8"
      | .b2 => "16"
      | .b4 => "32")

/-- The mnemonic of the opcode table: the verb joined to the register name with a dot (R91). -/
def Asm.mnemonic (a : Asm) : String := a.verb ++ "." ++ regName a.reg

/-- A hexadecimal digit. -/
def hexDigit (d : BitVec 4) : Char :=
  if d.toNat < 10 then Char.ofNat (48 + d.toNat) else Char.ofNat (55 + d.toNat)

/-- A number written with its `n` hexadecimal digits (R7). -/
def hexText (n v : Nat) : String :=
  "0x" ++ String.ofList ((List.range n).reverse.map fun j => hexDigit (BitVec.ofNat 4 (v / 16 ^ j)))

/-- The text of a line of notation (R91). -/
def Asm.text (a : Asm) : String :=
  a.verb ++ " " ++ regName a.reg ++ (if a.plus = 0 then "" else "+" ++ hexText 3 a.plus.toNat) ++
    (match a.value with
      | none => ""
      | some v => ", " ++ hexText 8 v.toNat)

/-! ### Pseudo-instructions (R92) -/

/-- The pseudo-instructions of R92. -/
inductive Pseudo where
  | init
  | srst
  | poly (p : DWord)
  | seed (s : DWord)
  | xorout (x : DWord)
  | acc (a : DWord)
  | feed (m : List Byte)
  | result
  | digest
  deriving DecidableEq, Repr

/-- `CRC.FEED m` (R92): a 32-bit write for each full group of four bytes, then a 16-bit write for a remainder of two
or three, then an 8-bit write for a remainder of one or three. -/
def feedBytes : List Byte → List Instr
  | a :: b :: c :: d :: rest => .wr32Data (d ++ c ++ b ++ a) :: feedBytes rest
  | [a, b, c] => [.wr16Data 0 (0#16 ++ b ++ a), .wr8Data 0 (c.setWidth 32)]
  | [a, b] => [.wr16Data 0 (0#16 ++ b ++ a)]
  | [a] => [.wr8Data 0 (a.setWidth 32)]
  | [] => []

/-- The expansion of a pseudo-instruction (R92). -/
def Pseudo.expand : Pseudo → List Instr
  | .init => [.wr32Cmd 0x1]
  | .srst => [.wr32Cmd 0x2]
  | .poly p => [.wr32PolyLo (loHalf p), .wr32PolyHi (hiHalf p)]
  | .seed s => [.wr32SeedLo (loHalf s), .wr32SeedHi (hiHalf s)]
  | .xorout x => [.wr32XoroutLo (loHalf x), .wr32XoroutHi (hiHalf x)]
  | .acc a => [.wr32AccLo (loHalf a), .wr32AccHi (hiHalf a)]
  | .feed m => feedBytes m
  | .result => [.rd32ResultLo, .rd32ResultHi]
  | .digest => [.rd32Digest 0, .rd32Digest 4]

/-- Operations as the bus events that issue them, in order (R60, R80). -/
def issue (is : List Instr) : List HostEvent := is.map fun i => .transaction (encode i)

end Sys2Proof.Machine
end

