-- ==== Sys2Proof/Machine/Timing.lean ====
section
/-! DEFINITION. Durations in clock cycles (spec/70_reset_and_hazards.md rules R236, R240), as functions of the
implementation parameters. No state holds a time and no value depends on one (R240; log entry 16). -/

namespace Sys2Proof.Machine

/-- `ceil(n / LANES)` fold cycles of a DATA write of `n` bytes (R240). -/
def foldCycles (lanes : Lanes) (n : Nat) : Nat := (n + lanes.count - 1) / lanes.count

/-- How long a transaction takes after it is accepted (R240): a DATA write its fold cycles, every other
transaction `T_ACC`. -/
def transactionCycles (t : Transaction) : Nat :=
  match decode t with
  | .op (.wr8Data _ _) => foldCycles Config.lanes 1
  | .op (.wr16Data _ _) => foldCycles Config.lanes 2
  | .op (.wr32Data _) => foldCycles Config.lanes 4
  | _ => Config.tAcc

/-- The longest hold the table builder can cause in a state: `T_BUILD` while BUILDING = 1 (R236, R240). -/
def holdCycles (s : State) : Nat := if s.building then Config.tBuild else 0

/-- The longest time from issue to response of a transaction issued in a state: the hold, then the transaction. -/
def responseCycles (t : Transaction) (s : State) : Nat := holdCycles s + transactionCycles t

end Sys2Proof.Machine
end

