-- ==== Sys2Proof/Safety.lean ====
section
/-! DEFINITION. What counts as a safe state and a safe run, and the words the statements use. -/

namespace Sys2Proof.Machine

/-- The invariant of the block. Each clause is a rule of the spec; every step keeps it and reset meets it. -/
structure Inv (s : State) : Prop where
  /-- "CAUSE is 0 whenever ERR is 0" (R26, R164). -/
  cause_clear : s.err = false → s.cause = 0
  /-- While ERR is 1, ERRINFO is a transaction word that decodes to the recorded cause (R29, R201, R202); so codes
  6 to 15 are never recorded. -/
  error_recorded : s.err = true → ∃ c, decode ⟨s.errinfo, 0⟩ = .busError c ∧ s.cause = causeCode c
  /-- ERRINFO always holds a word that is answered with an error (0 is the 8-bit read of offset 0x000, R169); its
  reserved bit 12 is then 0 (R29). -/
  errinfo_illegal : ∃ c, decode ⟨s.errinfo, 0⟩ = .busError c
  /-- BUILDING exists only in a block with a table RAM (R20, R39). -/
  building_has_ram : s.building = true → s.tableRam.isSome = true
  /-- "whenever BUILDING = 0, entry i of the RAM equals TABLE(POLY, CTRL.REFLECT)[i] for every i" (R38). -/
  ram_agrees : s.building = false → ∀ ram, s.tableRam = some ram →
    ∀ i : Fin 256, ram[i] = tableEntry s.poly s.reflect (BitVec.ofNat 8 i.val)

/-- The table RAM is there exactly when IMPL = TABLE (R38). -/
def RamFollowsImpl (s : State) : Prop := s.tableRam.isSome = Config.impl.hasRam

/-- Every transaction the host has issued is one the port can carry: RSV = 0 (R80, R89). -/
def PortClean (s : State) : Prop := ∀ t, HostEvent.transaction t ∈ s.pending → t.rsv = false

/-- A safe run of `k` steps: it ends in a state, not in a refusal. -/
def SafeRun (k : Nat) (s : State) : Prop := ∃ t, core.run k s = .next t

/-- The operation is a write (`tw.W = 1`, R80). -/
def writes (i : Instr) : Bool := i.word.getLsbD 15

/-- The bytes a DATA write folds, in order (R133); none for any other operation. -/
def bytesFolded : Instr → Option (List Byte)
  | .wr8Data _ v => some (dataBytes .b1 v)
  | .wr16Data _ v => some (dataBytes .b2 v)
  | .wr32Data v => some (dataBytes .b4 v)
  | _ => none

/-- A DATA write the port can carry. -/
def isDataWrite (i : Instr) : Bool := (bytesFolded i).isSome && i.wf

/-- The bytes a sequence of operations folds, in order. -/
def messageOf (is : List Instr) : List Byte := is.flatMap fun i => (bytesFolded i).getD []

/-- The event a step takes is a transaction that decodes to the operation `i`. -/
def Takes (s : State) (i : Instr) : Prop :=
  ∃ t rest, s.pending = .transaction t :: rest ∧ decode t = .op i

/-- The event a step takes is a reset. -/
def TakesReset (s : State) : Prop := ∃ a rest, s.pending = .reset a :: rest

/-- The event a step takes is a transaction that is answered with a bus error. -/
def TakesError (s : State) : Prop :=
  ∃ t rest c, s.pending = .transaction t :: rest ∧ decode t = .busError c

/-- Reads of 1 and 2 bytes at `off` are answered with cause 2 (R55, R201). -/
def NarrowReadsBadSize (off : Offset) : Prop :=
  decode (busRead off .b1) = .busError .badSize ∧ decode (busRead off .b2) = .busError .badSize

/-- Writes of 1 and 2 bytes at `off` are answered with cause 2 (R55, R201). -/
def NarrowWritesBadSize (off : Offset) : Prop :=
  ∀ v, decode (busWrite off .b1 v) = .busError .badSize ∧ decode (busWrite off .b2 v) = .busError .badSize

/-- Writes of every width at `off` are answered with cause 4 (R201). -/
def WritesReadOnly (off : Offset) : Prop := ∀ n v, decode (busWrite off n v) = .busError .readOnly

end Sys2Proof.Machine
end

