-- ==== Sys2Proof/Certificates/Slice0/Obligations.lean ====
section
/-! DEFINITION. The statements for the provers. Where a statement speaks of every state, it holds in states no run
reaches too; the invariant `Inv` is a premise where the table RAM or the error record is concerned. -/

open Sys2Proof Sys2Proof.Machine

/-! ### Encoding (spec/30_encoding.md) -/

/-- Words written out from R85 and the examples of R91 decode to what they stand for. -/
def Obligations.SpecWordsDecode : Prop :=
  ∀ v : Word,
    decode ⟨0b0100000000000000, v⟩ = .op .rd32Id ∧
    decode ⟨0b1100000000001000, v⟩ = .op (.wr32Ctrl v) ∧
    decode ⟨0b1100000000010000, v⟩ = .op (.wr32Cmd v) ∧
    decode ⟨0b1100000000100100, v⟩ = .op (.wr32PolyHi v) ∧
    decode ⟨0b1000000001000011, v⟩ = .op (.wr8Data 3 v) ∧
    decode ⟨0b1010000001000010, v⟩ = .op (.wr16Data 2 v) ∧
    decode ⟨0b0000000001010011, v⟩ = .op (.rd8Digest 3) ∧
    decode ⟨0b0010000001010110, v⟩ = .op (.rd16Digest 6) ∧
    decode ⟨0b0100000001010100, v⟩ = .op (.rd32Digest 4) ∧
    decode ⟨0b0100111111111100, v⟩ = .op (.rd32Table 255 1) ∧
    decode ⟨0b0100100000001000, v⟩ = .op (.rd32Table 1 0)

/-- Decoding the encoding of a well-formed operation gives it back, for all 36 operations and every operand. -/
def Obligations.DecodeOfEncode : Prop :=
  ∀ i : Instr, i.wf = true → decode (encode i) = .op i

/-- What decodes to an operation is that operation's word, with its write data where it is a write. -/
def Obligations.EncodeOfDecode : Prop :=
  ∀ (t : Transaction) (i : Instr), decode t = .op i →
    i.wf = true ∧ i.word = t.tw ∧ (t.isWrite = true → i.writeData = t.wdata)

/-- R85: "The map has 36 operations." and "The rows are disjoint.": no word selects two rows. -/
def Obligations.RowsAreDisjoint : Prop :=
  rows.length = 36 ∧
  ∀ (j k : Fin rows.length) (tw : Half), rows[j].selects tw = true → rows[k].selects tw = true → j = k

/-- R84 test by test, in numbers: an error's cause is the first test that fails, the reserved words being the ranges
R201 names; R203's order. The register ranges of the read-only test are R56's. -/
def Obligations.DecodeFollowsTestOrder : Prop :=
  ∀ (tw : Half) (v : Word), tw.getLsbD 12 = false →
    let off := tw.toNat % 4096
    let sz := tw.toNat / 8192 % 4
    let reserved := (0x01C ≤ off ∧ off ≤ 0x01F) ∨ (0x044 ≤ off ∧ off ≤ 0x047) ∨ (0x058 ≤ off ∧ off ≤ 0x7FF)
    let readOnly := off ≤ 0x007 ∨ (0x014 ≤ off ∧ off ≤ 0x01B) ∨ (0x048 ≤ off ∧ off ≤ 0x057) ∨ 0x800 ≤ off
    let allowed := sz = 2 ∨ (0x8000 ≤ tw.toNat ∧ 0x040 ≤ off ∧ off ≤ 0x043) ∨
      (tw.toNat < 0x8000 ∧ 0x050 ≤ off ∧ off ≤ 0x057)
    (sz = 3 → decode ⟨tw, v⟩ = .busError .badSz64) ∧
    (sz ≠ 3 → reserved → decode ⟨tw, v⟩ = .busError .unmapped) ∧
    (sz ≠ 3 → ¬reserved → off % 2 ^ sz ≠ 0 → decode ⟨tw, v⟩ = .busError .misaligned) ∧
    (sz ≠ 3 → ¬reserved → off % 2 ^ sz = 0 → 0x8000 ≤ tw.toNat → readOnly →
      decode ⟨tw, v⟩ = .busError .readOnly) ∧
    (sz ≠ 3 → ¬reserved → off % 2 ^ sz = 0 → ¬(0x8000 ≤ tw.toNat ∧ readOnly) → ¬allowed →
      decode ⟨tw, v⟩ = .busError .badSize) ∧
    (sz ≠ 3 → ¬reserved → off % 2 ^ sz = 0 → ¬(0x8000 ≤ tw.toNat ∧ readOnly) → allowed →
      ∃ i, decode ⟨tw, v⟩ = .op i)

/-- R85, R87: with RSV = 0, a word is answered with an error exactly when it selects no row; otherwise it is the
operation of the row it selects. -/
def Obligations.IllegalIffNoRowSelected : Prop :=
  ∀ t : Transaction, t.rsv = false →
    ((∃ c, decode t = .busError c) ↔ ∀ r ∈ rows, r.selects t.tw = false) ∧
    ∀ r ∈ rows, r.selects t.tw = true → decode t = .op (r.instr t)

/-- R10, R66, R80: the transaction of BusRead and BusWrite has the fields given, and a host address reaches the
block exactly when it is `BASE + off` for an offset of the window. -/
def Obligations.PortCarriesAddressDirectionSize : Prop :=
  (∀ (off : Offset) (n : Size), (busRead off n).off = off ∧ Size.ofCode (busRead off n).sz = some n ∧
    (busRead off n).isWrite = false ∧ (busRead off n).rsv = false) ∧
  (∀ (off : Offset) (n : Size) (v : Word), (busWrite off n v).off = off ∧
    Size.ofCode (busWrite off n v).sz = some n ∧ (busWrite off n v).isWrite = true ∧
    (busWrite off n v).rsv = false ∧ (busWrite off n v).wdata = v) ∧
  (∀ (addr : Nat) (off : Offset), windowOffset addr = some off ↔ addr = Config.base + off.toNat) ∧
  4096 ∣ Config.base

/-- R91: the notation of every operation assembles to its transaction, and its mnemonic is that of its row. -/
def Obligations.NotationAgreesWithEncoding : Prop :=
  (∀ i : Instr, (asmOf i).assemble = encode i) ∧
  ∀ r ∈ rows, ∀ t : Transaction, (asmOf (r.instr t)).mnemonic = r.mnemonic

/-- R82, R88: the bits of a write value that the spec says are ignored change nothing. -/
def Obligations.IgnoredWriteBits : Prop :=
  ∀ (s : State) (v w : Word) (lane lane' : BitVec 2),
    (v.getLsbD 0 = w.getLsbD 0 → exec (.wr32Ctrl v) s = exec (.wr32Ctrl w) s) ∧
    (v.getLsbD 0 = w.getLsbD 0 → exec (.wr32Status v) s = exec (.wr32Status w) s) ∧
    (v.extractLsb' 0 2 = w.extractLsb' 0 2 → exec (.wr32Cmd v) s = exec (.wr32Cmd w) s) ∧
    (v.extractLsb' 0 8 = w.extractLsb' 0 8 → exec (.wr8Data lane v) s = exec (.wr8Data lane' w) s) ∧
    (v.extractLsb' 0 16 = w.extractLsb' 0 16 → exec (.wr16Data lane v) s = exec (.wr16Data lane' w) s)

/-! ### The step (spec/20_memory.md, spec/60_exceptions.md, spec/70_reset_and_hazards.md) -/

/-- A step takes the oldest event; a transaction that decodes to an operation runs it, after the hold of R236 (the
table builder, if running, is done; one step for both is the model's choice, log entry 4), and nothing else is around
it. -/
def Obligations.StepRunsDecodedOperation : Prop :=
  ∀ (s : State) (t : Transaction) (rest : List HostEvent) (i : Instr),
    s.pending = .transaction t :: rest → decode t = .op i →
    step s = exec i { s with
      pending := rest
      building := false
      tableRam := if s.building then s.tableRam.map (fun _ => fullTable s.poly s.reflect) else s.tableRam }

/-- R202: a bus error sets ERR and records cause code and transaction word if ERR was 0, answers SLVERR (a read with
`rdata` 0), and changes nothing else. That the RAM and BUILDING are as after the hold of R236, done in the same step, is
the model's choice (log entry 4). -/
def Obligations.BusErrorEffect : Prop :=
  ∀ (s : State) (t : Transaction) (rest : List HostEvent) (c : BusCause),
    s.pending = .transaction t :: rest → decode t = .busError c →
    step s = .next { s with
      err := true
      cause := if s.err then s.cause else
        (match c with | .unmapped => 1 | .badSize => 2 | .misaligned => 3 | .readOnly => 4 | .badSz64 => 5)
      errinfo := if s.err then s.errinfo else t.tw
      responses := s.responses ++ [⟨.slverr, if t.isWrite then none else some 0⟩]
      pending := rest
      building := s.hold.building
      tableRam := s.hold.tableRam }

/-- R89: a word with RSV = 1 is refused by name and given no step. -/
def Obligations.ReservedBitIsNoTransaction : Prop :=
  ∀ (s : State) (t : Transaction) (rest : List HostEvent),
    s.pending = .transaction t :: rest → t.tw.getLsbD 12 = true →
    decode t = .notATransaction ∧ step s = .refused .notATransaction

/-- R230, R231: reset sets every state, whatever it was; a transaction in progress has no effect and gets no
response. That the later events stay pending is the model's choice (log entry 11). -/
def Obligations.ResetEventEffect : Prop :=
  ∀ (s : State) (a : Option Transaction) (rest : List HostEvent), s.pending = .reset a :: rest →
    ∃ t, step s = .next t ∧
      t.reflect = true ∧ t.err = false ∧ t.cause = 0 ∧ t.errinfo = 0 ∧ t.bytecount = 0 ∧
      t.poly = 0xC96C5795D7870F42 ∧ t.seed = 0 ∧ t.xorout = 0 ∧ t.acc = 0 ∧
      t.tableRam.isSome = s.tableRam.isSome ∧ t.building = s.tableRam.isSome ∧
      t.pending = rest ∧ t.responses = s.responses

/-- With nothing pending a step ends a table build and changes nothing else: the model's choice (log entry 2). -/
def Obligations.IdleStepOnlyEndsBuild : Prop :=
  ∀ s : State, s.pending = [] → step s = .next { s with building := false, tableRam := s.hold.tableRam }

/-- R41: the state after reset and after CMD.SRST, the constants and the derived values read then. -/
def Obligations.StateAfterReset : Prop :=
  let IsReset : State → Prop := fun t =>
    t.reflect = true ∧ t.err = false ∧ t.cause = 0 ∧ t.errinfo = 0 ∧ t.bytecount = 0 ∧
    t.poly = 0xC96C5795D7870F42 ∧ t.seed = 0 ∧ t.xorout = 0 ∧ t.acc = 0 ∧
    t.building = t.tableRam.isSome ∧
    (∀ ram, t.hold.tableRam = some ram →
      ∀ i : Fin 256, ram[i] = tableEntry 0xC96C5795D7870F42 true (BitVec.ofNat 8 i.val)) ∧
    exec .rd32Id t = readOkay 0x34365243 t ∧
    exec .rd32Caps t = readOkay (0#16 ++ 0x40#8 ++ 0#2 ++ Config.lanes.log2 ++ 0#3 ++ Config.impl.strategy) t ∧
    exec .rd32ResultLo t = readOkay 0 t ∧ exec .rd32ResultHi t = readOkay 0 t ∧
    (∀ k, exec (.rd8Digest k) t = readOkay 0 t) ∧
    (∀ i, exec (.rd32Table i 0) t = readOkay (loHalf (tableEntry 0xC96C5795D7870F42 true i)) t ∧
      exec (.rd32Table i 1) t = readOkay (hiHalf (tableEntry 0xC96C5795D7870F42 true i)) t)
  IsReset State.reset ∧ State.reset.tableRam.isSome = Config.impl.hasRam ∧
  ∀ (s : State) (v : Word), v.getLsbD 1 = true →
    ∃ t, exec (.wr32Cmd v) s = .next t ∧ IsReset t ∧ t.tableRam.isSome = s.tableRam.isSome

/-- The invariant holds right after reset. That the port is clean then holds because nothing is pending at reset, which
is the model's choice (log entry 1). -/
def Obligations.ResetMeetsInvariant : Prop :=
  Inv State.reset ∧ RamFollowsImpl State.reset ∧ PortClean State.reset

/-- Every step keeps the invariant, from every state that meets it: the error record is consistent, its reserved
codes and bit never occur, and the table RAM agrees with POLY and CTRL.REFLECT whenever BUILDING is 0. -/
def Obligations.StepKeepsInvariant : Prop :=
  ∀ s t : State, Inv s → step s = .next t → Inv t

/-- Whether the block has a table RAM never changes (R38); that State records its presence is the model's choice (log
entry 7). -/
def Obligations.StepKeepsRamPresence : Prop :=
  ∀ s t : State, RamFollowsImpl s → step s = .next t → RamFollowsImpl t

/-- While the host issues only words the port can carry, every step answers a next state, takes exactly the oldest
event, and gives a transaction exactly one response (R60, R200, R231, R241). That a step with nothing pending answers a
next state, without a response, is the model's choice (log entry 2), and so is that the later events stay pending after
a reset (log entry 11). -/
def Obligations.CleanPortStepsAndAnswers : Prop :=
  ∀ s : State, PortClean s →
    ∃ t, step s = .next t ∧ PortClean t ∧ t.pending = s.pending.tail ∧
      match s.pending with
      | .transaction _ :: _ => ∃ r, t.responses = s.responses ++ [r]
      | .reset _ :: _ => t.responses = s.responses
      | [] => t.responses = s.responses

/-- A run of any length from a clean port is safe. That a run longer than the list of pending events goes on, by steps
with nothing pending, is the model's choice (log entry 2). -/
def Obligations.CleanPortRunIsSafe : Prop :=
  ∀ (k : Nat) (s : State), PortClean s → SafeRun k s

/-- R207: while ERR is 1 the record (ERR, CAUSE, ERRINFO) changes only at a write of 1 to STATUS.ERR, at CMD.SRST or
at reset; a further error is answered with SLVERR and changes no other state. That the step of a further error also ends
a table build (`s.hold`) is the model's choice (log entry 4). -/
def Obligations.ErrorRecordIsSticky : Prop :=
  ∀ s t : State, s.err = true → step s = .next t →
    (t.err ≠ s.err ∨ t.cause ≠ s.cause ∨ t.errinfo ≠ s.errinfo →
      (∃ v, v.getLsbD 0 = true ∧ Takes s (.wr32Status v)) ∨ (∃ v, v.getLsbD 1 = true ∧ Takes s (.wr32Cmd v)) ∨
        TakesReset s) ∧
    (TakesError s → ∃ d, t = { s.hold with
      pending := s.pending.tail, responses := s.responses ++ [⟨.slverr, d⟩] })

/-- R20, the column "writable through", over whole steps: a state changes only at the operations listed for it. The
clause on BUILDING is not R20's, which says "the table builder only": it follows from R39 with the hold done in the step
and the build ended by a step with nothing pending, which are the model's choices (log entries 4, 2). -/
def Obligations.StateChangesOnlyAtItsWriters : Prop :=
  ∀ s t : State, step s = .next t →
    let srst := (∃ v, v.getLsbD 1 = true ∧ Takes s (.wr32Cmd v)) ∨ TakesReset s
    let init := ∃ v, v.getLsbD 0 = true ∧ Takes s (.wr32Cmd v)
    let data := ∃ i, Takes s i ∧ isDataWrite i = true
    let polyWrite := ∃ v, Takes s (.wr32PolyLo v) ∨ Takes s (.wr32PolyHi v)
    let ctrlWrite := ∃ v, Takes s (.wr32Ctrl v)
    (t.reflect ≠ s.reflect → ctrlWrite ∨ srst) ∧
    (t.err ≠ s.err ∨ t.cause ≠ s.cause →
      TakesError s ∨ (∃ v, v.getLsbD 0 = true ∧ Takes s (.wr32Status v)) ∨ srst) ∧
    (t.errinfo ≠ s.errinfo → TakesError s ∨ srst) ∧
    (t.bytecount ≠ s.bytecount → data ∨ init ∨ srst) ∧
    (t.poly ≠ s.poly → polyWrite ∨ srst) ∧
    (t.seed ≠ s.seed → (∃ v, Takes s (.wr32SeedLo v) ∨ Takes s (.wr32SeedHi v)) ∨ srst) ∧
    (t.xorout ≠ s.xorout → (∃ v, Takes s (.wr32XoroutLo v) ∨ Takes s (.wr32XoroutHi v)) ∨ srst) ∧
    (t.acc ≠ s.acc → (∃ v, Takes s (.wr32AccLo v) ∨ Takes s (.wr32AccHi v)) ∨ data ∨ init ∨ srst) ∧
    (t.building = true → polyWrite ∨ ctrlWrite ∨ srst)

/-- R58: a read changes no state of the block: exactly one OKAY response with a value is given, all else stays. -/
def Obligations.ReadsChangeNoState : Prop :=
  ∀ (i : Instr) (s : State), writes i = false →
    ∃ v, exec i s = .next { s with responses := s.responses ++ [⟨.okay, some v⟩] }

/-- Every write operation completes with OKAY and leaves what it does not write: every register but those of its
rule, and the events pending (R163 to R185, R134 to R136). -/
def Obligations.WritesFrame : Prop :=
  ∀ (i : Instr) (s : State), writes i = true →
    ∃ t, exec i s = .next t ∧ t.responses = s.responses ++ [⟨.okay, none⟩] ∧ t.pending = s.pending ∧
      ((∀ v, i ≠ .wr32Cmd v) →
        (((∃ v, i = .wr32Ctrl v) ∨ t.reflect = s.reflect) ∧
        ((∃ v, i = .wr32Status v) ∨ (t.err = s.err ∧ t.cause = s.cause)) ∧
        t.errinfo = s.errinfo ∧
        ((∃ l v, i = .wr8Data l v ∨ i = .wr16Data l v ∨ i = .wr32Data v) ∨ t.bytecount = s.bytecount) ∧
        ((∃ v, i = .wr32PolyLo v ∨ i = .wr32PolyHi v) ∨ t.poly = s.poly) ∧
        ((∃ v, i = .wr32SeedLo v ∨ i = .wr32SeedHi v) ∨ t.seed = s.seed) ∧
        ((∃ v, i = .wr32XoroutLo v ∨ i = .wr32XoroutHi v) ∨ t.xorout = s.xorout) ∧
        ((∃ l v, i = .wr8Data l v ∨ i = .wr16Data l v ∨ i = .wr32Data v ∨ i = .wr32AccLo v ∨ i = .wr32AccHi v) ∨
          t.acc = s.acc) ∧
        ((∃ v, i = .wr32Ctrl v ∨ i = .wr32PolyLo v ∨ i = .wr32PolyHi v) ∨
          (t.tableRam = s.tableRam ∧ t.building = s.building ∧ t.ramDraws = s.ramDraws))))

/-! ### Identification, control, status, command (spec/42_control.md R160 to R169, spec/41_digest.md R144) -/

/-- R160, R161: ID and CAPS read their constants in every state; writes are cause 4, narrow reads cause 2. -/
def Obligations.IdentificationReads : Prop :=
  (∀ v, decode ⟨0x4000, v⟩ = .op .rd32Id) ∧ (∀ v, decode ⟨0x4004, v⟩ = .op .rd32Caps) ∧
  (∀ s : State,
    exec .rd32Id s = .next { s with responses := s.responses ++ [⟨.okay, some 0x34365243⟩] } ∧
    exec .rd32Caps s = .next { s with
      responses := s.responses ++ [⟨.okay, some (0#16 ++ 0x40#8 ++ 0#2 ++
        (match Config.lanes with | .one => 0#2 | .two => 1#2 | .four => 2#2) ++ 0#3 ++
        (match Config.impl with | .table => 0#1 | .parallel => 1#1))⟩] }) ∧
  WritesReadOnly 0x000 ∧ NarrowReadsBadSize 0x000 ∧ WritesReadOnly 0x004 ∧ NarrowReadsBadSize 0x004

/-- R162, R164, R167, R168, R169, R144: the words CTRL, STATUS, CMD, BYTECOUNT, ERRINFO and DATA read as, nothing
changed by it, and the causes of the neighbouring encodings. -/
def Obligations.ControlReads : Prop :=
  (∀ v, decode ⟨0x4008, v⟩ = .op .rd32Ctrl ∧ decode ⟨0x400C, v⟩ = .op .rd32Status ∧
    decode ⟨0x4010, v⟩ = .op .rd32Cmd ∧ decode ⟨0x4014, v⟩ = .op .rd32Bytecount ∧
    decode ⟨0x4018, v⟩ = .op .rd32Errinfo ∧ decode ⟨0x4040, v⟩ = .op .rd32Data) ∧
  (∀ s : State,
    exec .rd32Ctrl s = .next { s with responses := s.responses ++ [⟨.okay, some (if s.reflect then 1 else 0)⟩] } ∧
    exec .rd32Status s = .next { s with
      responses := s.responses ++ [⟨.okay, some (0#24 ++ s.cause ++ 0#3 ++ (if s.err then 1#1 else 0#1))⟩] } ∧
    exec .rd32Cmd s = .next { s with responses := s.responses ++ [⟨.okay, some 0⟩] } ∧
    exec .rd32Bytecount s = .next { s with responses := s.responses ++ [⟨.okay, some s.bytecount⟩] } ∧
    exec .rd32Errinfo s = .next { s with responses := s.responses ++ [⟨.okay, some (0#16 ++ s.errinfo)⟩] } ∧
    exec .rd32Data s = .next { s with responses := s.responses ++ [⟨.okay, some 0⟩] }) ∧
  NarrowReadsBadSize 0x008 ∧ NarrowReadsBadSize 0x00C ∧ NarrowReadsBadSize 0x010 ∧ NarrowReadsBadSize 0x014 ∧
  NarrowReadsBadSize 0x018 ∧ NarrowReadsBadSize 0x040 ∧ WritesReadOnly 0x014 ∧ WritesReadOnly 0x018

/-- R163: CTRL.REFLECT takes bit 0 of the value; through it the table and the next fold use POLY as it stands, in the
new order (R115, R237); nothing else changes but a table build, which starts when REFLECT changes in a block with a
table RAM (R39). -/
def Obligations.ControlWrite : Prop :=
  (∀ v, decode ⟨0xC008, v⟩ = .op (.wr32Ctrl v)) ∧ NarrowWritesBadSize 0x008 ∧
  ∀ (s : State) (v : Word), ∃ t, exec (.wr32Ctrl v) s = .next t ∧
    t = { s with
      reflect := v.getLsbD 0, responses := s.responses ++ [⟨.okay, none⟩],
      building := t.building, tableRam := t.tableRam, ramDraws := t.ramDraws } ∧
    (v.getLsbD 0 = s.reflect → t.tableRam = s.tableRam) ∧
    (v.getLsbD 0 ≠ s.reflect → t.building = (s.building || s.tableRam.isSome)) ∧
    t.tableRam.isSome = s.tableRam.isSome ∧
    (∀ i : BitVec 8,
      exec (.rd32Table i 0) t = readOkay ((tableEntry s.poly (v.getLsbD 0) i).extractLsb' 0 32) t ∧
      exec (.rd32Table i 1) t = readOkay ((tableEntry s.poly (v.getLsbD 0) i).extractLsb' 32 32) t) ∧
    ∀ b : Byte, (t.foldByte b).acc = fold s.poly (v.getLsbD 0) s.acc b

/-- R165: ERR and CAUSE are cleared exactly when bit 0 is 1; ERRINFO and all else stay. -/
def Obligations.StatusWriteOneToClear : Prop :=
  (∀ v, decode ⟨0xC00C, v⟩ = .op (.wr32Status v)) ∧ NarrowWritesBadSize 0x00C ∧
  ∀ (s : State) (v : Word),
    (v.getLsbD 0 = true → exec (.wr32Status v) s =
      .next { s with err := false, cause := 0, responses := s.responses ++ [⟨.okay, none⟩] }) ∧
    (v.getLsbD 0 = false → exec (.wr32Status v) s =
      .next { s with responses := s.responses ++ [⟨.okay, none⟩] })

/-- R166: INIT loads SEED into ACC and clears BYTECOUNT; SRST, which takes precedence, sets every state of R20 to its
reset value; 0 in both bits does nothing. -/
def Obligations.CommandWrite : Prop :=
  (∀ v, decode ⟨0xC010, v⟩ = .op (.wr32Cmd v)) ∧ NarrowWritesBadSize 0x010 ∧
  ∀ (s : State) (v : Word),
    (v.getLsbD 1 = false → v.getLsbD 0 = false → exec (.wr32Cmd v) s =
      .next { s with responses := s.responses ++ [⟨.okay, none⟩] }) ∧
    (v.getLsbD 1 = false → v.getLsbD 0 = true → exec (.wr32Cmd v) s =
      .next { s with acc := s.seed, bytecount := 0, responses := s.responses ++ [⟨.okay, none⟩] }) ∧
    (v.getLsbD 1 = true → ∃ t, exec (.wr32Cmd v) s = .next t ∧
      t = { s with
        reflect := true, err := false, cause := 0, errinfo := 0, bytecount := 0, poly := 0xC96C5795D7870F42
        seed := 0, xorout := 0, acc := 0, responses := s.responses ++ [⟨.okay, none⟩],
        building := s.tableRam.isSome, tableRam := t.tableRam, ramDraws := t.ramDraws } ∧
      t.tableRam.isSome = s.tableRam.isSome)

/-! ### The 64-bit registers (spec/42_control.md R170 to R185) -/

/-- R170, R171, R174, R175, R178, R179, R182, R183: the halves of POLY, SEED, XOROUT and ACC read as they stand. -/
def Obligations.ConfigurationReads : Prop :=
  (∀ v, decode ⟨0x4020, v⟩ = .op .rd32PolyLo ∧ decode ⟨0x4024, v⟩ = .op .rd32PolyHi ∧
    decode ⟨0x4028, v⟩ = .op .rd32SeedLo ∧ decode ⟨0x402C, v⟩ = .op .rd32SeedHi ∧
    decode ⟨0x4030, v⟩ = .op .rd32XoroutLo ∧ decode ⟨0x4034, v⟩ = .op .rd32XoroutHi ∧
    decode ⟨0x4038, v⟩ = .op .rd32AccLo ∧ decode ⟨0x403C, v⟩ = .op .rd32AccHi) ∧
  (∀ s : State,
    let answers : Instr → Word → Prop := fun i v =>
      exec i s = .next { s with responses := s.responses ++ [⟨.okay, some v⟩] }
    answers .rd32PolyLo (s.poly.extractLsb' 0 32) ∧ answers .rd32PolyHi (s.poly.extractLsb' 32 32) ∧
    answers .rd32SeedLo (s.seed.extractLsb' 0 32) ∧ answers .rd32SeedHi (s.seed.extractLsb' 32 32) ∧
    answers .rd32XoroutLo (s.xorout.extractLsb' 0 32) ∧ answers .rd32XoroutHi (s.xorout.extractLsb' 32 32) ∧
    answers .rd32AccLo (s.acc.extractLsb' 0 32) ∧ answers .rd32AccHi (s.acc.extractLsb' 32 32)) ∧
  ∀ off ∈ [0x020#12, 0x024#12, 0x028#12, 0x02C#12, 0x030#12, 0x034#12, 0x038#12, 0x03C#12],
    NarrowReadsBadSize off ∧ NarrowWritesBadSize off

/-- R176, R177, R180, R181, R184, R185: a write replaces one half of SEED, XOROUT or ACC and changes nothing else. -/
def Obligations.SeedXoroutAccWrites : Prop :=
  (∀ v, decode ⟨0xC028, v⟩ = .op (.wr32SeedLo v) ∧ decode ⟨0xC02C, v⟩ = .op (.wr32SeedHi v) ∧
    decode ⟨0xC030, v⟩ = .op (.wr32XoroutLo v) ∧ decode ⟨0xC034, v⟩ = .op (.wr32XoroutHi v) ∧
    decode ⟨0xC038, v⟩ = .op (.wr32AccLo v) ∧ decode ⟨0xC03C, v⟩ = .op (.wr32AccHi v)) ∧
  (∀ off ∈ [0x028#12, 0x02C#12, 0x030#12, 0x034#12, 0x038#12, 0x03C#12], NarrowWritesBadSize off) ∧
  ∀ (s : State) (v : Word),
    let answered := s.responses ++ [⟨.okay, none⟩]
    exec (.wr32SeedLo v) s = .next { s with seed := s.seed.extractLsb' 32 32 ++ v, responses := answered } ∧
    exec (.wr32SeedHi v) s = .next { s with seed := v ++ s.seed.extractLsb' 0 32, responses := answered } ∧
    exec (.wr32XoroutLo v) s = .next { s with xorout := s.xorout.extractLsb' 32 32 ++ v, responses := answered } ∧
    exec (.wr32XoroutHi v) s = .next { s with xorout := v ++ s.xorout.extractLsb' 0 32, responses := answered } ∧
    exec (.wr32AccLo v) s = .next { s with acc := s.acc.extractLsb' 32 32 ++ v, responses := answered } ∧
    exec (.wr32AccHi v) s = .next { s with acc := v ++ s.acc.extractLsb' 0 32, responses := answered }

/-- R172, R173: a write replaces one half of POLY; through it the table and the next fold follow, with the mixed value
until the other half is written (R115, R235); nothing else changes but a table build, which starts when POLY changes
in a block with a table RAM (R39). -/
def Obligations.PolyWrites : Prop :=
  (∀ v, decode ⟨0xC020, v⟩ = .op (.wr32PolyLo v) ∧ decode ⟨0xC024, v⟩ = .op (.wr32PolyHi v)) ∧
  NarrowWritesBadSize 0x020 ∧ NarrowWritesBadSize 0x024 ∧
  ∀ (s : State) (v : Word),
    let sets : Instr → DWord → Prop := fun i P => ∃ t, exec i s = .next t ∧
      t = { s with
        poly := P, responses := s.responses ++ [⟨.okay, none⟩],
        building := t.building, tableRam := t.tableRam, ramDraws := t.ramDraws } ∧
      (P = s.poly → t.tableRam = s.tableRam) ∧
      (P ≠ s.poly → t.building = (s.building || s.tableRam.isSome)) ∧
      t.tableRam.isSome = s.tableRam.isSome ∧
      (∀ n : BitVec 8,
        exec (.rd32Table n 0) t = readOkay ((tableEntry P s.reflect n).extractLsb' 0 32) t ∧
        exec (.rd32Table n 1) t = readOkay ((tableEntry P s.reflect n).extractLsb' 32 32) t) ∧
      ∀ b : Byte, (t.foldByte b).acc = fold P s.reflect s.acc b
    sets (.wr32PolyLo v) (s.poly.extractLsb' 32 32 ++ v) ∧ sets (.wr32PolyHi v) (v ++ s.poly.extractLsb' 0 32)

/-! ### The table (spec/40_table.md) -/

/-- R110, R111: the table's construction, step by step; `P` is POLY as it stands, at reset 0xC96C5795D7870F42. -/
def Obligations.TableConstruction : Prop :=
  State.reset.poly = 0xC96C5795D7870F42 ∧
  ∀ (P : DWord) (i : Byte),
    tableEntry P true i =
      (fun c : DWord => if c.getLsbD 0 then (c >>> 1) ^^^ P else c >>> 1)^[8] (i.setWidth 64) ∧
    tableEntry P false i =
      (fun c : DWord => if c.getLsbD 63 then (c <<< 1) ^^^ P else c <<< 1)^[8] (i.setWidth 64 <<< 56)

/-- The laws of both tables, the spec's own inference from R110 and R111 (R112, "These follow from rules R110 and
R111"). -/
def Obligations.TableLaws : Prop :=
  ∀ (P : DWord) (r : Bool),
    tableEntry P r 0 = 0 ∧ tableEntry P true 0x80 = P ∧ tableEntry P false 0x01 = P ∧
    (∀ i j : Byte, tableEntry P r (i ^^^ j) = tableEntry P r i ^^^ tableEntry P r j) ∧
    (∀ i : Byte, tableEntry 0 true i = 0 ∧ tableEntry 0 false i = 0)

/-- One table step equals eight single-bit steps, in both bit orders: the spec's own inference (R117, "one table step
equals eight single-bit steps"). -/
def Obligations.TableStepIsBitSerial : Prop :=
  ∀ (P a : DWord) (b : Byte),
    (a >>> 8) ^^^ tableEntry P true ((a ^^^ b.setWidth 64).extractLsb' 0 8) =
      (fun c : DWord => if c.getLsbD 0 then (c >>> 1) ^^^ P else c >>> 1)^[8] (a ^^^ b.setWidth 64) ∧
    (a <<< 8) ^^^ tableEntry P false (a.extractLsb' 56 8 ^^^ b) =
      (fun c : DWord => if c.getLsbD 63 then (c <<< 1) ^^^ P else c <<< 1)^[8] (a ^^^ (b.setWidth 64 <<< 56))

/-- R114: RD32.TABLE answers one half of the entry of the present POLY and CTRL.REFLECT; the neighbouring encodings
are errors. -/
def Obligations.TableReads : Prop :=
  (∀ (i : BitVec 8) (h : BitVec 1) (v : Word), decode ⟨0b01001#5 ++ i ++ h ++ 0#2, v⟩ = .op (.rd32Table i h)) ∧
  (∀ (s : State) (i : BitVec 8),
    exec (.rd32Table i 0) s = .next { s with
      responses := s.responses ++ [⟨.okay, some ((tableEntry s.poly s.reflect i).extractLsb' 0 32)⟩] } ∧
    exec (.rd32Table i 1) s = .next { s with
      responses := s.responses ++ [⟨.okay, some ((tableEntry s.poly s.reflect i).extractLsb' 32 32)⟩] }) ∧
  ∀ off : Offset, 0x800 ≤ off.toNat →
    (off.toNat % 4 = 0 → WritesReadOnly off ∧ NarrowReadsBadSize off) ∧
    (off.toNat % 4 ≠ 0 → decode (busRead off .b4) = .busError .misaligned)

/-- R38, R115: from a state that meets the invariant, after any operation and the hold that follows it, every entry of
the table RAM is that of the new POLY and CTRL.REFLECT; where both keep their values and no soft reset is made, the
RAM stays as it was and no build starts (that no build starts then is the model's choice, log entry 7). -/
def Obligations.TableRamFollowsInputs : Prop :=
  ∀ (s t : State) (i : Instr), Inv s → exec i s = .next t →
    (∀ ram, t.hold.tableRam = some ram →
      ∀ n : Fin 256, ram[n] = tableEntry t.poly t.reflect (BitVec.ofNat 8 n.val)) ∧
    (t.poly = s.poly → t.reflect = s.reflect → (∀ v, i ≠ .wr32Cmd v) →
      t.tableRam = s.tableRam ∧ t.building = s.building)

/-- R6, R38, R41: what the table RAM holds is never observable: two states that differ only there take the same step,
give the same responses and differ afterwards at most there. In states where BUILDING is 0 and the RAM does not hold the
table of POLY and CTRL.REFLECT, which no run reaches, this rests on the model's choice to compute entries instead of
reading the RAM (log entry 8). -/
def Obligations.TableRamIsNotObservable : Prop :=
  ∀ (s t : State) (ram : Vector DWord 256), s.tableRam.isSome = true → step s = .next t →
    ∃ u : Option (Vector DWord 256),
      step { s with tableRam := some ram } = .next { t with tableRam := u } ∧ u.isSome = t.tableRam.isSome

/-- R6, R113: a datapath that reads the table RAM, or one that reduces bit by bit, leaves after any bytes exactly the
accumulator the fold leaves: the strategy is not observable. -/
def Obligations.StrategyIsUnobservable : Prop :=
  ∀ (s : State) (m : List Byte), Inv s →
    (∀ ram, s.hold.tableRam = some ram →
      m.foldl (foldFromRam ram s.reflect) s.acc = foldMessage s.poly s.reflect s.acc m) ∧
    m.foldl (foldSerial s.poly s.reflect) s.acc = foldMessage s.poly s.reflect s.acc m

/-! ### The datapath (spec/41_digest.md) -/

/-- R130, R131: the fold of one byte in each bit order; R132: what `Fold` reads and writes. -/
def Obligations.FoldOfOneByte : Prop :=
  (∀ (P a : DWord) (b : Byte),
    fold P true a b = (a >>> 8) ^^^ tableEntry P true ((a ^^^ b.setWidth 64).extractLsb' 0 8) ∧
    fold P false a b = (a <<< 8) ^^^ tableEntry P false (a.extractLsb' 56 8 ^^^ b)) ∧
  (∀ (s : State) (b : Byte), s.foldByte b = { s with
    acc := if s.reflect then fold s.poly true s.acc b else fold s.poly false s.acc b
    bytecount := s.bytecount + 1 }) ∧
  ∀ (s : State) (bs bs' : List Byte), s.foldBytes (bs ++ bs') = (s.foldBytes bs).foldBytes bs'

/-- R134, R135, R136: a DATA write folds its bytes, low byte first, whatever the lane; it counts them; nothing else
changes; a zero byte into a zero accumulator leaves it zero; misaligned writes are cause 3. -/
def Obligations.DataWrites : Prop :=
  (∀ (P : DWord) (r : Bool), fold P r 0 0 = 0) ∧
  (∀ (lane : BitVec 2) (v : Word), decode ⟨0x8040 ||| lane.setWidth 16, v⟩ = .op (.wr8Data lane v)) ∧
  (∀ v : Word, decode ⟨0xA040, v⟩ = .op (.wr16Data 0 v) ∧ decode ⟨0xA042, v⟩ = .op (.wr16Data 2 v) ∧
    decode ⟨0xC040, v⟩ = .op (.wr32Data v)) ∧
  (∀ (s : State) (lane : BitVec 2) (v : Word),
    let f := fold s.poly s.reflect
    let answered := s.responses ++ [⟨.okay, none⟩]
    exec (.wr8Data lane v) s = .next { s with
      acc := f s.acc (v.extractLsb' 0 8), bytecount := s.bytecount + 1, responses := answered } ∧
    exec (.wr16Data lane v) s = .next { s with
      acc := f (f s.acc (v.extractLsb' 0 8)) (v.extractLsb' 8 8), bytecount := s.bytecount + 2
      responses := answered } ∧
    exec (.wr32Data v) s = .next { s with
      acc := f (f (f (f s.acc (v.extractLsb' 0 8)) (v.extractLsb' 8 8)) (v.extractLsb' 16 8)) (v.extractLsb' 24 8)
      bytecount := s.bytecount + 4, responses := answered }) ∧
  (∀ v, decode (busWrite 0x041 .b2 v) = .busError .misaligned ∧ decode (busWrite 0x043 .b2 v) = .busError .misaligned ∧
    ∀ off ∈ [0x041#12, 0x042#12, 0x043#12], decode (busWrite off .b4 v) = .busError .misaligned)

/-- The spec's own inference from R133 and R134 (R149): the value a packed write leaves equals that of single-byte writes of its lanes in lane order. -/
def Obligations.PackedWriteEqualsByteWrites : Prop :=
  ∀ (s : State) (v : Word) (l : BitVec 2),
    ∃ u w t₁ t₂ t₃ t₄, exec (.wr16Data l v) s = .next u ∧ exec (.wr32Data v) s = .next w ∧
      exec (.wr8Data 0 v) s = .next t₁ ∧ exec (.wr8Data 1 (v >>> 8)) t₁ = .next t₂ ∧
      exec (.wr8Data 2 (v >>> 16)) t₂ = .next t₃ ∧ exec (.wr8Data 3 (v >>> 24)) t₃ = .next t₄ ∧
      { t₂ with responses := u.responses } = u ∧ { t₄ with responses := w.responses } = w

/-- R139, R140: RESULT_LO and RESULT_HI answer the halves of `ACC XOR XOROUT`. -/
def Obligations.ResultReads : Prop :=
  (∀ v, decode ⟨0x4048, v⟩ = .op .rd32ResultLo ∧ decode ⟨0x404C, v⟩ = .op .rd32ResultHi) ∧
  (∀ s : State,
    exec .rd32ResultLo s = .next { s with
      responses := s.responses ++ [⟨.okay, some ((s.acc ^^^ s.xorout).extractLsb' 0 32)⟩] } ∧
    exec .rd32ResultHi s = .next { s with
      responses := s.responses ++ [⟨.okay, some ((s.acc ^^^ s.xorout).extractLsb' 32 32)⟩] }) ∧
  WritesReadOnly 0x048 ∧ WritesReadOnly 0x04C

/-- R138, R141, R142, R143: digest byte `k` is `R[63-8k : 56-8k]`; a DIGEST read answers the bytes from its index on,
the first in bits 7:0. -/
def Obligations.DigestReads : Prop :=
  (∀ (k : BitVec 3) (v : Word), decode ⟨0x0050 ||| k.setWidth 16, v⟩ = .op (.rd8Digest k)) ∧
  (∀ k ∈ [0#3, 2#3, 4#3, 6#3], ∀ v, decode ⟨0x2050 ||| k.setWidth 16, v⟩ = .op (.rd16Digest k)) ∧
  (∀ k ∈ [0#3, 4#3], ∀ v, decode ⟨0x4050 ||| k.setWidth 16, v⟩ = .op (.rd32Digest k)) ∧
  (∀ s : State,
    let R := s.acc ^^^ s.xorout
    let D : Nat → Byte := fun k => (R >>> (56 - 8 * k)).setWidth 8
    let answers : Instr → Word → Prop := fun i v =>
      exec i s = .next { s with responses := s.responses ++ [⟨.okay, some v⟩] }
    (∀ k : BitVec 3, answers (.rd8Digest k) ((D k.toNat).setWidth 32)) ∧
    (∀ k : BitVec 3, k.toNat % 2 = 0 → answers (.rd16Digest k) (0#16 ++ D (k.toNat + 1) ++ D k.toNat)) ∧
    (∀ k : BitVec 3, k.toNat % 4 = 0 →
      answers (.rd32Digest k) (D (k.toNat + 3) ++ D (k.toNat + 2) ++ D (k.toNat + 1) ++ D k.toNat))) ∧
  (∀ off ∈ [0x051#12, 0x053#12, 0x055#12, 0x057#12], decode (busRead off .b2) = .busError .misaligned) ∧
  (∀ off ∈ [0x051#12, 0x052#12, 0x053#12, 0x055#12, 0x056#12, 0x057#12],
    decode (busRead off .b4) = .busError .misaligned) ∧
  ∀ off ∈ [0x050#12, 0x054#12], WritesReadOnly off

/-- R143's derived clause: the two DIGEST words are the byte reversals of RESULT_HI and RESULT_LO. -/
def Obligations.DigestIsByteReversedResult : Prop :=
  let rev : Word → Word := fun w => w.extractLsb' 0 8 ++ w.extractLsb' 8 8 ++ w.extractLsb' 16 8 ++ w.extractLsb' 24 8
  ∀ s : State, ∃ lo hi : Word,
    exec .rd32ResultLo s = readOkay lo s ∧ exec .rd32ResultHi s = readOkay hi s ∧
    exec (.rd32Digest 0) s = readOkay (rev hi) s ∧ exec (.rd32Digest 4) s = readOkay (rev lo) s

/-- R133, R137: any sequence of DATA writes, of any mix of widths and lanes, issued in any state and taken step by
step, leaves in ACC the fold of their bytes in order; every one is answered OKAY, the bytes are counted, and no other
register changes. -/
def Obligations.DataWritesFoldTheMessage : Prop :=
  ∀ (s : State) (is : List Instr) (rest : List HostEvent),
    (∀ i ∈ is, isDataWrite i = true) → s.pending = issue is ++ rest →
    ∃ t, core.run is.length s = .next t ∧
      t.acc = foldMessage s.poly s.reflect s.acc (messageOf is) ∧
      t.bytecount = s.bytecount + BitVec.ofNat 32 (messageOf is).length ∧
      t.responses = s.responses ++ List.replicate is.length ⟨.okay, none⟩ ∧ t.pending = rest ∧
      t.reflect = s.reflect ∧ t.err = s.err ∧ t.cause = s.cause ∧ t.errinfo = s.errinfo ∧
      t.poly = s.poly ∧ t.seed = s.seed ∧ t.xorout = s.xorout

/-- R92: CRC.FEED issues DATA writes that carry exactly the bytes of the message, in order. -/
def Obligations.FeedCarriesTheMessage : Prop :=
  ∀ m : List Byte, messageOf (feedBytes m) = m ∧ ∀ i ∈ feedBytes m, isDataWrite i = true

/-- R137: with the configuration at its reset values, CRC.INIT and CRC.FEED of any message leave RESULT = crc64 of
that message, the document's function. -/
def Obligations.BlockComputesCrc64 : Prop :=
  ∀ (s : State) (m : List Byte) (rest : List HostEvent),
    s.reflect = true → s.poly = 0xC96C5795D7870F42 → s.seed = 0 → s.xorout = 0 →
    s.pending = issue (Pseudo.init.expand ++ (Pseudo.feed m).expand) ++ rest →
    ∃ t, core.run (Pseudo.init.expand ++ (Pseudo.feed m).expand).length s = .next t ∧
      t.acc ^^^ t.xorout = crc64 m ∧ t.bytecount = BitVec.ofNat 32 m.length ∧ t.pending = rest

/-- R235, R237: every byte is folded under the configuration in force when it is folded: after one half of POLY and
CTRL are written in the middle of a message, with the mixed POLY, and after the other half, with the new one. -/
def Obligations.BytesFoldUnderTheConfigurationInForce : Prop :=
  ∀ (s : State) (lo hi ctrl : Word) (m₁ m₂ m₃ : List Byte) (rest : List HostEvent),
    let is := feedBytes m₁ ++ ([.wr32PolyLo lo, .wr32Ctrl ctrl] ++ (feedBytes m₂ ++ ([.wr32PolyHi hi] ++ feedBytes m₃)))
    s.pending = issue is ++ rest →
    ∃ t, core.run is.length s = .next t ∧
      t.acc = foldMessage (hi ++ lo) (ctrl.getLsbD 0)
        (foldMessage (s.poly.extractLsb' 32 32 ++ lo) (ctrl.getLsbD 0) (foldMessage s.poly s.reflect s.acc m₁) m₂) m₃ ∧
      t.poly = hi ++ lo ∧ t.seed = s.seed ∧ t.xorout = s.xorout ∧ t.pending = rest

/-- R92: what each pseudo-instruction leaves, run step by step from any state, and its frame: every register not named
is as it was. The RAM and BUILDING, which R92 does not speak of, are left open here but for the RAM's presence; that
the steps carry their holds is the model's choice (log entry 4). -/
def Obligations.PseudoInstructionEffects : Prop :=
  ∀ (s : State) (p : Pseudo) (rest : List HostEvent), s.pending = issue p.expand ++ rest →
    ∃ t, core.run p.expand.length s = .next t ∧ t.tableRam.isSome = s.tableRam.isSome ∧
      let answered := s.responses ++ List.replicate p.expand.length ⟨.okay, none⟩
      let R := s.acc ^^^ s.xorout
      let leaves : State → Prop := fun u => t = { u with
        pending := rest, building := t.building, tableRam := t.tableRam, ramDraws := t.ramDraws }
      match p with
      | .init => leaves { s with acc := s.seed, bytecount := 0, responses := answered }
      | .srst => leaves { s with
          reflect := true, err := false, cause := 0, errinfo := 0, bytecount := 0, poly := 0xC96C5795D7870F42
          seed := 0, xorout := 0, acc := 0, responses := answered }
      | .poly v => leaves { s with poly := v, responses := answered }
      | .seed v => leaves { s with seed := v, responses := answered }
      | .xorout v => leaves { s with xorout := v, responses := answered }
      | .acc v => leaves { s with acc := v, responses := answered }
      | .feed m => leaves { s with
          acc := foldMessage s.poly s.reflect s.acc m, bytecount := s.bytecount + BitVec.ofNat 32 m.length
          responses := answered }
      | .result => ∃ lo hi : Word, hi ++ lo = R ∧
          leaves { s with responses := s.responses ++ [⟨.okay, some lo⟩, ⟨.okay, some hi⟩] }
      | .digest => ∃ lo hi : Word,
          (∀ k : Fin 8, (hi ++ lo).extractLsb' (8 * k.val) 8 = R.extractLsb' (56 - 8 * k.val) 8) ∧
          leaves { s with responses := s.responses ++ [⟨.okay, some lo⟩, ⟨.okay, some hi⟩] }

/-- The spec's own inference from R112, R130 and R131 (R145, "The function is not injective"): leading zero bytes leave the checksum unchanged, and the checksum is linear over messages of equal length,
for every POLY and either bit order; so crc64 is not injective. -/
def Obligations.ZeroPrefixAndLinearity : Prop :=
  (∀ (P : DWord) (r : Bool) (n : Nat) (m : List Byte),
    foldMessage P r 0 (List.replicate n 0) = 0 ∧
    foldMessage P r 0 (List.replicate n 0 ++ m) = foldMessage P r 0 m) ∧
  (∀ (P : DWord) (r : Bool) (m₁ m₂ : List Byte), m₁.length = m₂.length →
    foldMessage P r 0 (List.zipWith (· ^^^ ·) m₁ m₂) = foldMessage P r 0 m₁ ^^^ foldMessage P r 0 m₂) ∧
  crc64 [] = 0 ∧ ∀ n, crc64 (List.replicate n 0) = 0

/-- The spec's own inference from R130 (R146, "Folding instead the 8 digest bytes ... does not leave 0 in general"): in
the reflected order, folding after a message the bytes of its checksum, least significant first, leaves
ACC = 0; folding the digest bytes instead does not in general. -/
def Obligations.ResidueIsZero : Prop :=
  (∀ (P : DWord) (m : List Byte),
    let c := foldMessage P true 0 m
    foldMessage P true 0 (m ++ (List.range 8).map fun j => c.extractLsb' (8 * j) 8) = 0) ∧
  ∃ m : List Byte, crc64 (m ++ (List.range 8).map (digestByte (crc64 m))) ≠ 0

/-! ### Time (spec/70_reset_and_hazards.md R236, R240) -/

/-- R236, R240: a DATA write of `n` bytes takes `ceil(n / LANES)` cycles, every other transaction T_ACC, a hold for the
table builder at most T_BUILD; so every transaction is answered within a bound that no state and no operand changes: no
hold is a hang. Durations as functions beside the machine, and a hold counted as the whole T_BUILD while BUILDING is 1,
are the model's choice (log entry 16). -/
def Obligations.ResponseTimeIsBounded : Prop :=
  (∀ (lanes : Lanes) (n : Nat), n ≤ lanes.count * foldCycles lanes n ∧
    lanes.count * foldCycles lanes n < n + lanes.count) ∧
  (∀ (t : Transaction) (lane : BitVec 2) (v : Word),
    (decode t = .op (.wr8Data lane v) → transactionCycles t = foldCycles Config.lanes 1) ∧
    (decode t = .op (.wr16Data lane v) → transactionCycles t = foldCycles Config.lanes 2) ∧
    (decode t = .op (.wr32Data v) → transactionCycles t = foldCycles Config.lanes 4)) ∧
  (∀ t : Transaction, (∀ i, decode t = .op i → bytesFolded i = none) → transactionCycles t = Config.tAcc) ∧
  (∀ s : State, (s.building = true → holdCycles s = Config.tBuild) ∧ (s.building = false → holdCycles s = 0)) ∧
  ∀ (t : Transaction) (s : State), responseCycles t s = holdCycles s + transactionCycles t ∧
    responseCycles t s ≤ Config.tBuild + max Config.tAcc 4
end

