-- ==== Sys2Proof/Laws/Decode.lean ====
section
/-! SUPPORT. Decoding does not look at the write data: it is decided by the transaction word alone, and the write
data only fills the operand. So a fact about every transaction is a fact about every 16-bit word. -/

namespace Sys2Proof

/-- An operation with its write data replaced. -/
def Instr.withData (v : Word) : Instr → Instr
  | .wr32Ctrl _ => .wr32Ctrl v
  | .wr32Status _ => .wr32Status v
  | .wr32Cmd _ => .wr32Cmd v
  | .wr32PolyLo _ => .wr32PolyLo v
  | .wr32PolyHi _ => .wr32PolyHi v
  | .wr32SeedLo _ => .wr32SeedLo v
  | .wr32SeedHi _ => .wr32SeedHi v
  | .wr32XoroutLo _ => .wr32XoroutLo v
  | .wr32XoroutHi _ => .wr32XoroutHi v
  | .wr32AccLo _ => .wr32AccLo v
  | .wr32AccHi _ => .wr32AccHi v
  | .wr8Data lane _ => .wr8Data lane v
  | .wr16Data lane _ => .wr16Data lane v
  | .wr32Data _ => .wr32Data v
  | i => i

/-- What a word spells, with the write data replaced. -/
def Decoded.withData (v : Word) : Decoded → Decoded
  | .op i => .op (i.withData v)
  | .busError c => .busError c
  | .notATransaction => .notATransaction

/-- Every row reads its operands from the word, but for the write data. -/
theorem row_instr_withData : ∀ r ∈ rows, ∀ (tw : Half) (u v : Word),
    r.instr ⟨tw, v⟩ = (r.instr ⟨tw, u⟩).withData v := by
  simp [rows, rowsControl, rowsConfiguration, rowsDatapath, Instr.withData, Transaction.lane,
    Transaction.digestIndex, Transaction.tableIndex, Transaction.tableHalf]

theorem selectRow_withData (tw : Half) (u v : Word) :
    selectRow ⟨tw, v⟩ = (selectRow ⟨tw, u⟩).map (Instr.withData v) := by
  simp only [selectRow, Option.map_map]
  cases h : rows.find? (·.selects tw) with
  | none => rfl
  | some r => exact congrArg some (row_instr_withData r (List.mem_of_find?_eq_some h) tw u v)

/-- Decoding with any write data is decoding with another, and the data filled in. -/
theorem decode_withData (tw : Half) (u v : Word) : decode ⟨tw, v⟩ = (decode ⟨tw, u⟩).withData v := by
  have h1 : (⟨tw, v⟩ : Transaction).rsv = (⟨tw, u⟩ : Transaction).rsv := rfl
  have h2 : (⟨tw, v⟩ : Transaction).sz = (⟨tw, u⟩ : Transaction).sz := rfl
  have h3 : (⟨tw, v⟩ : Transaction).off = (⟨tw, u⟩ : Transaction).off := rfl
  have h4 : (⟨tw, v⟩ : Transaction).isWrite = (⟨tw, u⟩ : Transaction).isWrite := rfl
  simp only [decode, selectRow_withData tw u v, h1, h2, h3, h4]
  split
  · rfl
  · split
    · rfl
    · split
      · rfl
      · split
        · rfl
        · split
          · rfl
          · cases selectRow ⟨tw, u⟩ <;> rfl

/-- The operation a word spells, with the write data it comes with. -/
theorem decode_op_withData {tw : Half} {i : Instr} (h : decode ⟨tw, 0⟩ = .op i) (v : Word) :
    decode ⟨tw, v⟩ = .op (i.withData v) := by
  rw [decode_withData tw 0 v, h]
  rfl

/-- What decodes to an operation has RSV = 0 and selects that operation's row (R84, R85). -/
theorem decode_op_selects {t : Transaction} {i : Instr} (h : decode t = .op i) :
    t.rsv = false ∧ selectRow t = some i := by
  unfold decode at h
  repeat' split at h
  all_goals simp_all

/-- Whether a word is answered with an error, and which, does not depend on the write data. -/
theorem decode_busError_iff (t : Transaction) (u : Word) (c : BusCause) :
    decode t = .busError c ↔ decode ⟨t.tw, u⟩ = .busError c := by
  rw [show t = ⟨t.tw, t.wdata⟩ from rfl, decode_withData t.tw u t.wdata]
  cases decode ⟨t.tw, u⟩ <;> simp [Decoded.withData]

/-- A word with RSV = 1 spells nothing (R89). -/
theorem decode_of_rsv {t : Transaction} (h : t.rsv = true) : decode t = .notATransaction := by
  simp [decode, h]

/-- A word with RSV = 0 spells something (R84 is total). -/
theorem decode_of_not_rsv {t : Transaction} (h : t.rsv = false) : decode t ≠ .notATransaction := by
  simp only [decode, h, Bool.false_eq_true, if_false]
  repeat' split
  all_goals simp

end Sys2Proof
end

