-- ==== Sys2Proof/Laws/State.lean ====
section
/-! SUPPORT. One lemma per field and update of the state, each true by unfolding, so that no proof unfolds a record
update. The table RAM's lemmas say whether there is one (`isSome`) and what it holds. -/

namespace Sys2Proof.Machine

/-! ### `State.respond` -/

@[simp] theorem State.respond_reflect (r : Response) (s : State) : (s.respond r).reflect = s.reflect := rfl
@[simp] theorem State.respond_err (r : Response) (s : State) : (s.respond r).err = s.err := rfl
@[simp] theorem State.respond_cause (r : Response) (s : State) : (s.respond r).cause = s.cause := rfl
@[simp] theorem State.respond_errinfo (r : Response) (s : State) : (s.respond r).errinfo = s.errinfo := rfl
@[simp] theorem State.respond_bytecount (r : Response) (s : State) : (s.respond r).bytecount = s.bytecount := rfl
@[simp] theorem State.respond_poly (r : Response) (s : State) : (s.respond r).poly = s.poly := rfl
@[simp] theorem State.respond_seed (r : Response) (s : State) : (s.respond r).seed = s.seed := rfl
@[simp] theorem State.respond_xorout (r : Response) (s : State) : (s.respond r).xorout = s.xorout := rfl
@[simp] theorem State.respond_acc (r : Response) (s : State) : (s.respond r).acc = s.acc := rfl
@[simp] theorem State.respond_tableRam (r : Response) (s : State) : (s.respond r).tableRam = s.tableRam := rfl
@[simp] theorem State.respond_building (r : Response) (s : State) : (s.respond r).building = s.building := rfl
@[simp] theorem State.respond_ramDraws (r : Response) (s : State) : (s.respond r).ramDraws = s.ramDraws := rfl
@[simp] theorem State.respond_pending (r : Response) (s : State) : (s.respond r).pending = s.pending := rfl
@[simp] theorem State.respond_responses (r : Response) (s : State) : (s.respond r).responses = s.responses ++ [r] := rfl

/-! ### `State.startBuild` -/

@[simp] theorem State.startBuild_reflect (c : Bool) (s : State) : (s.startBuild c).reflect = s.reflect := rfl
@[simp] theorem State.startBuild_err (c : Bool) (s : State) : (s.startBuild c).err = s.err := rfl
@[simp] theorem State.startBuild_cause (c : Bool) (s : State) : (s.startBuild c).cause = s.cause := rfl
@[simp] theorem State.startBuild_errinfo (c : Bool) (s : State) : (s.startBuild c).errinfo = s.errinfo := rfl
@[simp] theorem State.startBuild_bytecount (c : Bool) (s : State) : (s.startBuild c).bytecount = s.bytecount := rfl
@[simp] theorem State.startBuild_poly (c : Bool) (s : State) : (s.startBuild c).poly = s.poly := rfl
@[simp] theorem State.startBuild_seed (c : Bool) (s : State) : (s.startBuild c).seed = s.seed := rfl
@[simp] theorem State.startBuild_xorout (c : Bool) (s : State) : (s.startBuild c).xorout = s.xorout := rfl
@[simp] theorem State.startBuild_acc (c : Bool) (s : State) : (s.startBuild c).acc = s.acc := rfl
@[simp] theorem State.startBuild_building (c : Bool) (s : State) : (s.startBuild c).building = (s.building || (c && s.tableRam.isSome)) := rfl
@[simp] theorem State.startBuild_pending (c : Bool) (s : State) : (s.startBuild c).pending = s.pending := rfl
@[simp] theorem State.startBuild_responses (c : Bool) (s : State) : (s.startBuild c).responses = s.responses := rfl

/-! ### `State.hold` -/

@[simp] theorem State.hold_reflect (s : State) : s.hold.reflect = s.reflect := rfl
@[simp] theorem State.hold_err (s : State) : s.hold.err = s.err := rfl
@[simp] theorem State.hold_cause (s : State) : s.hold.cause = s.cause := rfl
@[simp] theorem State.hold_errinfo (s : State) : s.hold.errinfo = s.errinfo := rfl
@[simp] theorem State.hold_bytecount (s : State) : s.hold.bytecount = s.bytecount := rfl
@[simp] theorem State.hold_poly (s : State) : s.hold.poly = s.poly := rfl
@[simp] theorem State.hold_seed (s : State) : s.hold.seed = s.seed := rfl
@[simp] theorem State.hold_xorout (s : State) : s.hold.xorout = s.xorout := rfl
@[simp] theorem State.hold_acc (s : State) : s.hold.acc = s.acc := rfl
@[simp] theorem State.hold_building (s : State) : s.hold.building = false := rfl
@[simp] theorem State.hold_ramDraws (s : State) : s.hold.ramDraws = s.ramDraws := rfl
@[simp] theorem State.hold_pending (s : State) : s.hold.pending = s.pending := rfl
@[simp] theorem State.hold_responses (s : State) : s.hold.responses = s.responses := rfl

/-! ### `State.setPoly` -/

@[simp] theorem State.setPoly_reflect (P : DWord) (s : State) : (s.setPoly P).reflect = s.reflect := rfl
@[simp] theorem State.setPoly_err (P : DWord) (s : State) : (s.setPoly P).err = s.err := rfl
@[simp] theorem State.setPoly_cause (P : DWord) (s : State) : (s.setPoly P).cause = s.cause := rfl
@[simp] theorem State.setPoly_errinfo (P : DWord) (s : State) : (s.setPoly P).errinfo = s.errinfo := rfl
@[simp] theorem State.setPoly_bytecount (P : DWord) (s : State) : (s.setPoly P).bytecount = s.bytecount := rfl
@[simp] theorem State.setPoly_poly (P : DWord) (s : State) : (s.setPoly P).poly = P := rfl
@[simp] theorem State.setPoly_seed (P : DWord) (s : State) : (s.setPoly P).seed = s.seed := rfl
@[simp] theorem State.setPoly_xorout (P : DWord) (s : State) : (s.setPoly P).xorout = s.xorout := rfl
@[simp] theorem State.setPoly_acc (P : DWord) (s : State) : (s.setPoly P).acc = s.acc := rfl
@[simp] theorem State.setPoly_building (P : DWord) (s : State) : (s.setPoly P).building = (s.building || (P != s.poly && s.tableRam.isSome)) := rfl
@[simp] theorem State.setPoly_pending (P : DWord) (s : State) : (s.setPoly P).pending = s.pending := rfl
@[simp] theorem State.setPoly_responses (P : DWord) (s : State) : (s.setPoly P).responses = s.responses := rfl

/-! ### `State.setReflect` -/

@[simp] theorem State.setReflect_reflect (r : Bool) (s : State) : (s.setReflect r).reflect = r := rfl
@[simp] theorem State.setReflect_err (r : Bool) (s : State) : (s.setReflect r).err = s.err := rfl
@[simp] theorem State.setReflect_cause (r : Bool) (s : State) : (s.setReflect r).cause = s.cause := rfl
@[simp] theorem State.setReflect_errinfo (r : Bool) (s : State) : (s.setReflect r).errinfo = s.errinfo := rfl
@[simp] theorem State.setReflect_bytecount (r : Bool) (s : State) : (s.setReflect r).bytecount = s.bytecount := rfl
@[simp] theorem State.setReflect_poly (r : Bool) (s : State) : (s.setReflect r).poly = s.poly := rfl
@[simp] theorem State.setReflect_seed (r : Bool) (s : State) : (s.setReflect r).seed = s.seed := rfl
@[simp] theorem State.setReflect_xorout (r : Bool) (s : State) : (s.setReflect r).xorout = s.xorout := rfl
@[simp] theorem State.setReflect_acc (r : Bool) (s : State) : (s.setReflect r).acc = s.acc := rfl
@[simp] theorem State.setReflect_building (r : Bool) (s : State) : (s.setReflect r).building = (s.building || (r != s.reflect && s.tableRam.isSome)) := rfl
@[simp] theorem State.setReflect_pending (r : Bool) (s : State) : (s.setReflect r).pending = s.pending := rfl
@[simp] theorem State.setReflect_responses (r : Bool) (s : State) : (s.setReflect r).responses = s.responses := rfl

/-! ### `State.resetBlock` -/

@[simp] theorem State.resetBlock_reflect (s : State) : s.resetBlock.reflect = true := rfl
@[simp] theorem State.resetBlock_err (s : State) : s.resetBlock.err = false := rfl
@[simp] theorem State.resetBlock_cause (s : State) : s.resetBlock.cause = 0 := rfl
@[simp] theorem State.resetBlock_errinfo (s : State) : s.resetBlock.errinfo = 0 := rfl
@[simp] theorem State.resetBlock_bytecount (s : State) : s.resetBlock.bytecount = 0 := rfl
@[simp] theorem State.resetBlock_poly (s : State) : s.resetBlock.poly = Config.polyReset := rfl
@[simp] theorem State.resetBlock_seed (s : State) : s.resetBlock.seed = 0 := rfl
@[simp] theorem State.resetBlock_xorout (s : State) : s.resetBlock.xorout = 0 := rfl
@[simp] theorem State.resetBlock_acc (s : State) : s.resetBlock.acc = 0 := rfl
@[simp] theorem State.resetBlock_building (s : State) : s.resetBlock.building = s.tableRam.isSome := rfl
@[simp] theorem State.resetBlock_pending (s : State) : s.resetBlock.pending = s.pending := rfl
@[simp] theorem State.resetBlock_responses (s : State) : s.resetBlock.responses = s.responses := rfl

/-! ### `State.initMessage` -/

@[simp] theorem State.initMessage_reflect (s : State) : s.initMessage.reflect = s.reflect := rfl
@[simp] theorem State.initMessage_err (s : State) : s.initMessage.err = s.err := rfl
@[simp] theorem State.initMessage_cause (s : State) : s.initMessage.cause = s.cause := rfl
@[simp] theorem State.initMessage_errinfo (s : State) : s.initMessage.errinfo = s.errinfo := rfl
@[simp] theorem State.initMessage_bytecount (s : State) : s.initMessage.bytecount = 0 := rfl
@[simp] theorem State.initMessage_poly (s : State) : s.initMessage.poly = s.poly := rfl
@[simp] theorem State.initMessage_seed (s : State) : s.initMessage.seed = s.seed := rfl
@[simp] theorem State.initMessage_xorout (s : State) : s.initMessage.xorout = s.xorout := rfl
@[simp] theorem State.initMessage_acc (s : State) : s.initMessage.acc = s.seed := rfl
@[simp] theorem State.initMessage_tableRam (s : State) : s.initMessage.tableRam = s.tableRam := rfl
@[simp] theorem State.initMessage_building (s : State) : s.initMessage.building = s.building := rfl
@[simp] theorem State.initMessage_ramDraws (s : State) : s.initMessage.ramDraws = s.ramDraws := rfl
@[simp] theorem State.initMessage_pending (s : State) : s.initMessage.pending = s.pending := rfl
@[simp] theorem State.initMessage_responses (s : State) : s.initMessage.responses = s.responses := rfl

/-! ### `State.foldByte` -/

@[simp] theorem State.foldByte_reflect (s : State) (b : Byte) : (s.foldByte b).reflect = s.reflect := rfl
@[simp] theorem State.foldByte_err (s : State) (b : Byte) : (s.foldByte b).err = s.err := rfl
@[simp] theorem State.foldByte_cause (s : State) (b : Byte) : (s.foldByte b).cause = s.cause := rfl
@[simp] theorem State.foldByte_errinfo (s : State) (b : Byte) : (s.foldByte b).errinfo = s.errinfo := rfl
@[simp] theorem State.foldByte_bytecount (s : State) (b : Byte) : (s.foldByte b).bytecount = s.bytecount + 1 := rfl
@[simp] theorem State.foldByte_poly (s : State) (b : Byte) : (s.foldByte b).poly = s.poly := rfl
@[simp] theorem State.foldByte_seed (s : State) (b : Byte) : (s.foldByte b).seed = s.seed := rfl
@[simp] theorem State.foldByte_xorout (s : State) (b : Byte) : (s.foldByte b).xorout = s.xorout := rfl
@[simp] theorem State.foldByte_acc (s : State) (b : Byte) : (s.foldByte b).acc = fold s.poly s.reflect s.acc b := rfl
@[simp] theorem State.foldByte_tableRam (s : State) (b : Byte) : (s.foldByte b).tableRam = s.tableRam := rfl
@[simp] theorem State.foldByte_building (s : State) (b : Byte) : (s.foldByte b).building = s.building := rfl
@[simp] theorem State.foldByte_ramDraws (s : State) (b : Byte) : (s.foldByte b).ramDraws = s.ramDraws := rfl
@[simp] theorem State.foldByte_pending (s : State) (b : Byte) : (s.foldByte b).pending = s.pending := rfl
@[simp] theorem State.foldByte_responses (s : State) (b : Byte) : (s.foldByte b).responses = s.responses := rfl

/-! ### `recordError` -/

@[simp] theorem recordError_reflect (c : BusCause) (tw : Half) (s : State) : (recordError c tw s).reflect = s.reflect := rfl
@[simp] theorem recordError_err (c : BusCause) (tw : Half) (s : State) : (recordError c tw s).err = true := rfl
@[simp] theorem recordError_cause (c : BusCause) (tw : Half) (s : State) : (recordError c tw s).cause = (if s.err then s.cause else causeCode c) := rfl
@[simp] theorem recordError_errinfo (c : BusCause) (tw : Half) (s : State) : (recordError c tw s).errinfo = (if s.err then s.errinfo else tw) := rfl
@[simp] theorem recordError_bytecount (c : BusCause) (tw : Half) (s : State) : (recordError c tw s).bytecount = s.bytecount := rfl
@[simp] theorem recordError_poly (c : BusCause) (tw : Half) (s : State) : (recordError c tw s).poly = s.poly := rfl
@[simp] theorem recordError_seed (c : BusCause) (tw : Half) (s : State) : (recordError c tw s).seed = s.seed := rfl
@[simp] theorem recordError_xorout (c : BusCause) (tw : Half) (s : State) : (recordError c tw s).xorout = s.xorout := rfl
@[simp] theorem recordError_acc (c : BusCause) (tw : Half) (s : State) : (recordError c tw s).acc = s.acc := rfl
@[simp] theorem recordError_tableRam (c : BusCause) (tw : Half) (s : State) : (recordError c tw s).tableRam = s.tableRam := rfl
@[simp] theorem recordError_building (c : BusCause) (tw : Half) (s : State) : (recordError c tw s).building = s.building := rfl
@[simp] theorem recordError_ramDraws (c : BusCause) (tw : Half) (s : State) : (recordError c tw s).ramDraws = s.ramDraws := rfl
@[simp] theorem recordError_pending (c : BusCause) (tw : Half) (s : State) : (recordError c tw s).pending = s.pending := rfl
@[simp] theorem recordError_responses (c : BusCause) (tw : Half) (s : State) : (recordError c tw s).responses = s.responses := rfl

/-! ### `clearStatus` -/

@[simp] theorem clearStatus_reflect (v : Word) (s : State) : (clearStatus v s).reflect = s.reflect := rfl
@[simp] theorem clearStatus_err (v : Word) (s : State) : (clearStatus v s).err = (s.err && !v.getLsbD 0) := rfl
@[simp] theorem clearStatus_cause (v : Word) (s : State) : (clearStatus v s).cause = (if v.getLsbD 0 then 0 else s.cause) := rfl
@[simp] theorem clearStatus_errinfo (v : Word) (s : State) : (clearStatus v s).errinfo = s.errinfo := rfl
@[simp] theorem clearStatus_bytecount (v : Word) (s : State) : (clearStatus v s).bytecount = s.bytecount := rfl
@[simp] theorem clearStatus_poly (v : Word) (s : State) : (clearStatus v s).poly = s.poly := rfl
@[simp] theorem clearStatus_seed (v : Word) (s : State) : (clearStatus v s).seed = s.seed := rfl
@[simp] theorem clearStatus_xorout (v : Word) (s : State) : (clearStatus v s).xorout = s.xorout := rfl
@[simp] theorem clearStatus_acc (v : Word) (s : State) : (clearStatus v s).acc = s.acc := rfl
@[simp] theorem clearStatus_tableRam (v : Word) (s : State) : (clearStatus v s).tableRam = s.tableRam := rfl
@[simp] theorem clearStatus_building (v : Word) (s : State) : (clearStatus v s).building = s.building := rfl
@[simp] theorem clearStatus_ramDraws (v : Word) (s : State) : (clearStatus v s).ramDraws = s.ramDraws := rfl
@[simp] theorem clearStatus_pending (v : Word) (s : State) : (clearStatus v s).pending = s.pending := rfl
@[simp] theorem clearStatus_responses (v : Word) (s : State) : (clearStatus v s).responses = s.responses := rfl

/-! ### The table RAM -/

@[simp] theorem State.startBuild_isSome (c : Bool) (s : State) :
    (s.startBuild c).tableRam.isSome = s.tableRam.isSome := by
  cases c <;> simp [State.startBuild]

theorem State.startBuild_tableRam_of_same (s : State) : (s.startBuild false).tableRam = s.tableRam := rfl

@[simp] theorem State.hold_isSome (s : State) : s.hold.tableRam.isSome = s.tableRam.isSome := by
  simp only [State.hold]
  split <;> simp

theorem State.hold_tableRam_of_building {s : State} (h : s.building = true) :
    s.hold.tableRam = s.tableRam.map (fun _ => fullTable s.poly s.reflect) := by
  simp [State.hold, h]

theorem State.hold_tableRam_of_ready {s : State} (h : s.building = false) : s.hold.tableRam = s.tableRam := by
  simp [State.hold, h]

/-- A hold of a state whose table is built changes nothing. -/
theorem State.hold_of_ready {s : State} (h : s.building = false) : s.hold = s := by
  cases s
  simp_all [State.hold]

@[simp] theorem State.setPoly_isSome (P : DWord) (s : State) :
    (s.setPoly P).tableRam.isSome = s.tableRam.isSome := by
  simp [State.setPoly]

@[simp] theorem State.setReflect_isSome (r : Bool) (s : State) :
    (s.setReflect r).tableRam.isSome = s.tableRam.isSome := by
  simp [State.setReflect]

@[simp] theorem State.resetBlock_isSome (s : State) : s.resetBlock.tableRam.isSome = s.tableRam.isSome := by
  simp [State.resetBlock]

/-- POLY written with the value it has: the table RAM stays. -/
theorem State.setPoly_tableRam_of_same (s : State) : (s.setPoly s.poly).tableRam = s.tableRam := by
  simp [State.setPoly, State.startBuild]

/-- CTRL.REFLECT written with the value it has: the table RAM stays. -/
theorem State.setReflect_tableRam_of_same (s : State) : (s.setReflect s.reflect).tableRam = s.tableRam := by
  simp [State.setReflect, State.startBuild]

/-! ### Commands -/

/-- SRST takes precedence (R166). -/
theorem State.command_of_srst {v : Word} (h : v.getLsbD 1 = true) (s : State) : s.command v = s.resetBlock := by
  simp only [State.command, h, if_true]

theorem State.command_of_init {v : Word} (h1 : v.getLsbD 1 = false) (h0 : v.getLsbD 0 = true) (s : State) :
    s.command v = s.initMessage := by
  simp only [State.command, h1, h0, Bool.false_eq_true, if_false, if_true]

theorem State.command_of_none {v : Word} (h1 : v.getLsbD 1 = false) (h0 : v.getLsbD 0 = false) (s : State) :
    s.command v = s := by
  simp only [State.command, h1, h0, Bool.false_eq_true, if_false]

/-- Everything a CMD write can do: a soft reset, a new message, or nothing. -/
theorem State.command_cases (v : Word) (s : State) :
    (v.getLsbD 1 = true ∧ s.command v = s.resetBlock) ∨
    (v.getLsbD 1 = false ∧ v.getLsbD 0 = true ∧ s.command v = s.initMessage) ∨
    (v.getLsbD 1 = false ∧ v.getLsbD 0 = false ∧ s.command v = s) := by
  cases h1 : v.getLsbD 1 with
  | true => exact .inl ⟨rfl, State.command_of_srst h1 s⟩
  | false =>
    cases h0 : v.getLsbD 0 with
    | true => exact .inr (.inl ⟨rfl, rfl, State.command_of_init h1 h0 s⟩)
    | false => exact .inr (.inr ⟨rfl, rfl, State.command_of_none h1 h0 s⟩)

@[simp] theorem State.command_pending (v : Word) (s : State) : (s.command v).pending = s.pending := by
  rcases State.command_cases v s with ⟨_, h⟩ | ⟨_, _, h⟩ | ⟨_, _, h⟩ <;> rw [h] <;> rfl

@[simp] theorem State.command_responses (v : Word) (s : State) : (s.command v).responses = s.responses := by
  rcases State.command_cases v s with ⟨_, h⟩ | ⟨_, _, h⟩ | ⟨_, _, h⟩ <;> rw [h] <;> rfl

@[simp] theorem State.command_isSome (v : Word) (s : State) :
    (s.command v).tableRam.isSome = s.tableRam.isSome := by
  rcases State.command_cases v s with ⟨_, h⟩ | ⟨_, _, h⟩ | ⟨_, _, h⟩ <;> rw [h] <;> simp

/-! ### Bytes folded in order -/

@[simp] theorem State.foldBytes_nil (s : State) : s.foldBytes [] = s := rfl

@[simp] theorem State.foldBytes_cons (s : State) (b : Byte) (bs : List Byte) :
    s.foldBytes (b :: bs) = (s.foldByte b).foldBytes bs := rfl

/-- What folding bytes does, all of it: ACC and BYTECOUNT move, every other field stays. -/
theorem State.foldBytes_eq (bs : List Byte) (s : State) :
    s.foldBytes bs = { s with
      acc := foldMessage s.poly s.reflect s.acc bs
      bytecount := s.bytecount + BitVec.ofNat 32 bs.length } := by
  induction bs generalizing s with
  | nil => simp [foldMessage]
  | cons b bs ih =>
    rw [State.foldBytes_cons, ih]
    simp [State.foldByte, foldMessage, BitVec.add_assoc, ← BitVec.ofNat_add, Nat.add_comm]

end Sys2Proof.Machine
end

