-- ==== Sys2Proof/Laws/Exec.lean ====
section
/-! SUPPORT. The effect of every operation: a state, and one response appended. These lemmas say all that `exec` can
do; later proofs cite them instead of unfolding a meaning. -/

namespace Sys2Proof.Machine

@[simp] theorem exec_rd32Id (s : State) :
    exec .rd32Id s = .next (s.respond ⟨.okay, some idWord⟩) := rfl

@[simp] theorem exec_rd32Caps (s : State) :
    exec .rd32Caps s = .next (s.respond ⟨.okay, some (capsWord Config.impl Config.lanes)⟩) := rfl

@[simp] theorem exec_rd32Ctrl (s : State) :
    exec .rd32Ctrl s = .next (s.respond ⟨.okay, some (ctrlWord s)⟩) := rfl

@[simp] theorem exec_wr32Ctrl (wdata : Word) (s : State) :
    exec (.wr32Ctrl wdata) s = .next (State.respond ⟨.okay, none⟩ (s.setReflect (wdata.getLsbD 0))) := rfl

@[simp] theorem exec_rd32Status (s : State) :
    exec .rd32Status s = .next (s.respond ⟨.okay, some (statusWord s)⟩) := rfl

@[simp] theorem exec_wr32Status (wdata : Word) (s : State) :
    exec (.wr32Status wdata) s = .next (State.respond ⟨.okay, none⟩ (clearStatus wdata s)) := rfl

@[simp] theorem exec_wr32Cmd (wdata : Word) (s : State) :
    exec (.wr32Cmd wdata) s = .next (State.respond ⟨.okay, none⟩ (s.command wdata)) := rfl

@[simp] theorem exec_rd32Cmd (s : State) :
    exec .rd32Cmd s = .next (s.respond ⟨.okay, some 0⟩) := rfl

@[simp] theorem exec_rd32Bytecount (s : State) :
    exec .rd32Bytecount s = .next (s.respond ⟨.okay, some s.bytecount⟩) := rfl

@[simp] theorem exec_rd32Errinfo (s : State) :
    exec .rd32Errinfo s = .next (s.respond ⟨.okay, some (errinfoWord s)⟩) := rfl

@[simp] theorem exec_rd32PolyLo (s : State) :
    exec .rd32PolyLo s = .next (s.respond ⟨.okay, some (loHalf s.poly)⟩) := rfl

@[simp] theorem exec_rd32PolyHi (s : State) :
    exec .rd32PolyHi s = .next (s.respond ⟨.okay, some (hiHalf s.poly)⟩) := rfl

@[simp] theorem exec_wr32PolyLo (wdata : Word) (s : State) :
    exec (.wr32PolyLo wdata) s = .next (State.respond ⟨.okay, none⟩ (s.setPoly (withLo s.poly wdata))) := rfl

@[simp] theorem exec_wr32PolyHi (wdata : Word) (s : State) :
    exec (.wr32PolyHi wdata) s = .next (State.respond ⟨.okay, none⟩ (s.setPoly (withHi s.poly wdata))) := rfl

@[simp] theorem exec_rd32SeedLo (s : State) :
    exec .rd32SeedLo s = .next (s.respond ⟨.okay, some (loHalf s.seed)⟩) := rfl

@[simp] theorem exec_rd32SeedHi (s : State) :
    exec .rd32SeedHi s = .next (s.respond ⟨.okay, some (hiHalf s.seed)⟩) := rfl

@[simp] theorem exec_wr32SeedLo (wdata : Word) (s : State) :
    exec (.wr32SeedLo wdata) s = .next (State.respond ⟨.okay, none⟩ { s with seed := withLo s.seed wdata }) := rfl

@[simp] theorem exec_wr32SeedHi (wdata : Word) (s : State) :
    exec (.wr32SeedHi wdata) s = .next (State.respond ⟨.okay, none⟩ { s with seed := withHi s.seed wdata }) := rfl

@[simp] theorem exec_rd32XoroutLo (s : State) :
    exec .rd32XoroutLo s = .next (s.respond ⟨.okay, some (loHalf s.xorout)⟩) := rfl

@[simp] theorem exec_rd32XoroutHi (s : State) :
    exec .rd32XoroutHi s = .next (s.respond ⟨.okay, some (hiHalf s.xorout)⟩) := rfl

@[simp] theorem exec_wr32XoroutLo (wdata : Word) (s : State) :
    exec (.wr32XoroutLo wdata) s = .next (State.respond ⟨.okay, none⟩ { s with xorout := withLo s.xorout wdata }) := rfl

@[simp] theorem exec_wr32XoroutHi (wdata : Word) (s : State) :
    exec (.wr32XoroutHi wdata) s = .next (State.respond ⟨.okay, none⟩ { s with xorout := withHi s.xorout wdata }) := rfl

@[simp] theorem exec_rd32AccLo (s : State) :
    exec .rd32AccLo s = .next (s.respond ⟨.okay, some (loHalf s.acc)⟩) := rfl

@[simp] theorem exec_rd32AccHi (s : State) :
    exec .rd32AccHi s = .next (s.respond ⟨.okay, some (hiHalf s.acc)⟩) := rfl

@[simp] theorem exec_wr32AccLo (wdata : Word) (s : State) :
    exec (.wr32AccLo wdata) s = .next (State.respond ⟨.okay, none⟩ { s with acc := withLo s.acc wdata }) := rfl

@[simp] theorem exec_wr32AccHi (wdata : Word) (s : State) :
    exec (.wr32AccHi wdata) s = .next (State.respond ⟨.okay, none⟩ { s with acc := withHi s.acc wdata }) := rfl

@[simp] theorem exec_wr8Data (lane : BitVec 2) (wdata : Word) (s : State) :
    exec (.wr8Data lane wdata) s = .next (State.respond ⟨.okay, none⟩ (s.foldBytes (dataBytes .b1 wdata))) := rfl

@[simp] theorem exec_wr16Data (lane : BitVec 2) (wdata : Word) (s : State) :
    exec (.wr16Data lane wdata) s = .next (State.respond ⟨.okay, none⟩ (s.foldBytes (dataBytes .b2 wdata))) := rfl

@[simp] theorem exec_wr32Data (wdata : Word) (s : State) :
    exec (.wr32Data wdata) s = .next (State.respond ⟨.okay, none⟩ (s.foldBytes (dataBytes .b4 wdata))) := rfl

@[simp] theorem exec_rd32Data (s : State) :
    exec .rd32Data s = .next (s.respond ⟨.okay, some 0⟩) := rfl

@[simp] theorem exec_rd32ResultLo (s : State) :
    exec .rd32ResultLo s = .next (s.respond ⟨.okay, some (loHalf s.result)⟩) := rfl

@[simp] theorem exec_rd32ResultHi (s : State) :
    exec .rd32ResultHi s = .next (s.respond ⟨.okay, some (hiHalf s.result)⟩) := rfl

@[simp] theorem exec_rd8Digest (k : BitVec 3) (s : State) :
    exec (.rd8Digest k) s = .next (s.respond ⟨.okay, some (digestRead .b1 s.result k)⟩) := rfl

@[simp] theorem exec_rd16Digest (k : BitVec 3) (s : State) :
    exec (.rd16Digest k) s = .next (s.respond ⟨.okay, some (digestRead .b2 s.result k)⟩) := rfl

@[simp] theorem exec_rd32Digest (k : BitVec 3) (s : State) :
    exec (.rd32Digest k) s = .next (s.respond ⟨.okay, some (digestRead .b4 s.result k)⟩) := rfl

@[simp] theorem exec_rd32Table (i : BitVec 8) (h : BitVec 1) (s : State) :
    exec (.rd32Table i h) s = .next (s.respond ⟨.okay, some (if h = 0 then loHalf (tableEntry s.poly s.reflect i) else hiHalf (tableEntry s.poly s.reflect i))⟩) := rfl

/-- Every operation answers a next state and gives exactly one OKAY response; the pending events stay. -/
theorem exec_answers (i : Instr) (s : State) :
    ∃ t d, exec i s = .next t ∧ t.responses = s.responses ++ [⟨.okay, d⟩] ∧ t.pending = s.pending := by
  cases i
  case wr32Cmd v => exact ⟨_, none, rfl, by simp, by simp⟩
  case wr8Data l v => exact ⟨_, none, rfl, by simp [State.foldBytes_eq], by simp [State.foldBytes_eq]⟩
  case wr16Data l v => exact ⟨_, none, rfl, by simp [State.foldBytes_eq], by simp [State.foldBytes_eq]⟩
  case wr32Data v => exact ⟨_, none, rfl, by simp [State.foldBytes_eq], by simp [State.foldBytes_eq]⟩
  all_goals exact ⟨_, _, rfl, rfl, rfl⟩

end Sys2Proof.Machine
end

