-- ==== Sys2Proof/Laws/Operands.lean ====
section
/-! SUPPORT. The operand forms' small lemmas: halves of a 64-bit register read back, bytes of a packed value. -/

namespace Sys2Proof.Machine

/-- The low half of `{a, b}`. -/
@[simp] theorem loHalf_append (a b : Word) : loHalf (a ++ b : DWord) = b := by
  apply BitVec.eq_of_getLsbD_eq
  intro j hj
  rw [loHalf, BitVec.getLsbD_extractLsb', BitVec.getLsbD_append]
  simp [hj]

/-- The high half of `{a, b}`. -/
@[simp] theorem hiHalf_append (a b : Word) : hiHalf (a ++ b : DWord) = a := by
  apply BitVec.eq_of_getLsbD_eq
  intro j hj
  rw [hiHalf, BitVec.getLsbD_extractLsb', BitVec.getLsbD_append]
  simp [hj]

@[simp] theorem loHalf_withLo (v : DWord) (w : Word) : loHalf (withLo v w) = w := loHalf_append _ _

@[simp] theorem hiHalf_withLo (v : DWord) (w : Word) : hiHalf (withLo v w) = hiHalf v := hiHalf_append _ _

@[simp] theorem loHalf_withHi (v : DWord) (w : Word) : loHalf (withHi v w) = loHalf v := loHalf_append _ _

@[simp] theorem hiHalf_withHi (v : DWord) (w : Word) : hiHalf (withHi v w) = w := hiHalf_append _ _

/-- A 64-bit register is its two halves. -/
@[simp] theorem hiHalf_append_loHalf (v : DWord) : (hiHalf v ++ loHalf v : DWord) = v := by
  apply BitVec.eq_of_getLsbD_eq
  intro j hj
  rw [BitVec.getLsbD_append]
  simp only [loHalf, hiHalf, BitVec.getLsbD_extractLsb']
  by_cases h : j < 32
  · simp [h]
  · have e : 32 + (j - 32) = j := by omega
    simp [h, e]
    omega

/-- Both halves written, in the order of R92, leave the new value whole. -/
@[simp] theorem withHi_withLo (u v : DWord) : withHi (withLo u (loHalf v)) (hiHalf v) = v := by
  rw [withHi, loHalf_withLo, hiHalf_append_loHalf]

@[simp] theorem dataBytes_b1 (v : Word) : dataBytes .b1 v = [byteOf v 0] := rfl

@[simp] theorem dataBytes_b2 (v : Word) : dataBytes .b2 v = [byteOf v 0, byteOf v 1] := rfl

@[simp] theorem dataBytes_b4 (v : Word) : dataBytes .b4 v = [byteOf v 0, byteOf v 1, byteOf v 2, byteOf v 3] := rfl

/-- The bytes of a value packed from four bytes, low byte first. -/
theorem dataBytes_b4_append (a b c d : Byte) : dataBytes .b4 (d ++ c ++ b ++ a : Word) = [a, b, c, d] := by
  have h0 : byteOf (d ++ c ++ b ++ a : Word) 0 = a := by
    apply BitVec.eq_of_getLsbD_eq
    intro j hj
    rw [byteOf, BitVec.getLsbD_extractLsb', BitVec.getLsbD_append]
    simp [hj]
  have h1 : byteOf (d ++ c ++ b ++ a : Word) 1 = b := by
    apply BitVec.eq_of_getLsbD_eq
    intro j hj
    rw [byteOf, BitVec.getLsbD_extractLsb', BitVec.getLsbD_append, BitVec.getLsbD_append]
    simp [hj]
  have h2 : byteOf (d ++ c ++ b ++ a : Word) 2 = c := by
    apply BitVec.eq_of_getLsbD_eq
    intro j hj
    have e : 16 + j - 8 - 8 = j := by omega
    rw [byteOf, BitVec.getLsbD_extractLsb', BitVec.getLsbD_append, BitVec.getLsbD_append, BitVec.getLsbD_append]
    have h1 : ¬ 16 + j < 8 := by omega
    have h2 : ¬ 16 + j - 8 < 8 := by omega
    simp [hj, e, h1, h2]
  have h3 : byteOf (d ++ c ++ b ++ a : Word) 3 = d := by
    apply BitVec.eq_of_getLsbD_eq
    intro j hj
    have e : 24 + j - 8 - 8 - 8 = j := by omega
    rw [byteOf, BitVec.getLsbD_extractLsb', BitVec.getLsbD_append, BitVec.getLsbD_append, BitVec.getLsbD_append]
    have h1 : ¬ 24 + j < 8 := by omega
    have h2 : ¬ 24 + j - 8 < 8 := by omega
    have h3 : ¬ 24 + j - 8 - 8 < 8 := by omega
    simp [hj, e, h1, h2, h3]
  simp [h0, h1, h2, h3]

/-- The bytes of a value packed from two bytes, low byte first. -/
theorem dataBytes_b2_append (a b : Byte) : dataBytes .b2 (0#16 ++ b ++ a : Word) = [a, b] := by
  have h0 : byteOf (0#16 ++ b ++ a : Word) 0 = a := by
    apply BitVec.eq_of_getLsbD_eq
    intro j hj
    rw [byteOf, BitVec.getLsbD_extractLsb', BitVec.getLsbD_append]
    simp [hj]
  have h1 : byteOf (0#16 ++ b ++ a : Word) 1 = b := by
    apply BitVec.eq_of_getLsbD_eq
    intro j hj
    rw [byteOf, BitVec.getLsbD_extractLsb', BitVec.getLsbD_append, BitVec.getLsbD_append]
    simp [hj]
  simp [h0, h1]

/-- The byte of a value that holds one byte, zero-extended. -/
theorem dataBytes_b1_setWidth (a : Byte) : dataBytes .b1 (a.setWidth 32) = [a] := by
  have h0 : byteOf (a.setWidth 32) 0 = a := by
    apply BitVec.eq_of_getLsbD_eq
    intro j hj
    have : j < 32 := by omega
    simp [byteOf, hj, this]
  simp [h0]

end Sys2Proof.Machine
end

