-- ==== Sys2Proof/Laws/PerInstr.lean ====
section
/-! SUPPORT. A fact about every operation as syntax, one lemma per constructor: its transaction word has RSV = 0 and a
size code that is not the reserved one (spec/30_encoding.md rules R80, R81, R89), for every value of the operands,
well formed or not. -/

namespace Sys2Proof.Laws.EncodedWord

/-- The word of an operation is one the port can carry: RSV = 0, and a size of 1, 2 or 4 bytes. -/
def Statement (i : Instr) : Prop := (encode i).rsv = false ∧ (encode i).sz ≠ 3

/-- The statement reads the transaction word only. -/
theorem of_word {i : Instr} (h : i.word.getLsbD 12 = false ∧ i.word.extractLsb' 13 2 ≠ 3) : Statement i := h

theorem rd32Id : Statement .rd32Id := of_word (by decide)

theorem rd32Caps : Statement .rd32Caps := of_word (by decide)

theorem rd32Ctrl : Statement .rd32Ctrl := of_word (by decide)

theorem wr32Ctrl (wdata : Word) : Statement (.wr32Ctrl wdata) :=
  of_word (i := .wr32Ctrl wdata) (show (Instr.wr32Ctrl 0).word.getLsbD 12 = false ∧ (Instr.wr32Ctrl 0).word.extractLsb' 13 2 ≠ 3 from by decide)

theorem rd32Status : Statement .rd32Status := of_word (by decide)

theorem wr32Status (wdata : Word) : Statement (.wr32Status wdata) :=
  of_word (i := .wr32Status wdata) (show (Instr.wr32Status 0).word.getLsbD 12 = false ∧ (Instr.wr32Status 0).word.extractLsb' 13 2 ≠ 3 from by decide)

theorem wr32Cmd (wdata : Word) : Statement (.wr32Cmd wdata) :=
  of_word (i := .wr32Cmd wdata) (show (Instr.wr32Cmd 0).word.getLsbD 12 = false ∧ (Instr.wr32Cmd 0).word.extractLsb' 13 2 ≠ 3 from by decide)

theorem rd32Cmd : Statement .rd32Cmd := of_word (by decide)

theorem rd32Bytecount : Statement .rd32Bytecount := of_word (by decide)

theorem rd32Errinfo : Statement .rd32Errinfo := of_word (by decide)

theorem rd32PolyLo : Statement .rd32PolyLo := of_word (by decide)

theorem rd32PolyHi : Statement .rd32PolyHi := of_word (by decide)

theorem wr32PolyLo (wdata : Word) : Statement (.wr32PolyLo wdata) :=
  of_word (i := .wr32PolyLo wdata) (show (Instr.wr32PolyLo 0).word.getLsbD 12 = false ∧ (Instr.wr32PolyLo 0).word.extractLsb' 13 2 ≠ 3 from by decide)

theorem wr32PolyHi (wdata : Word) : Statement (.wr32PolyHi wdata) :=
  of_word (i := .wr32PolyHi wdata) (show (Instr.wr32PolyHi 0).word.getLsbD 12 = false ∧ (Instr.wr32PolyHi 0).word.extractLsb' 13 2 ≠ 3 from by decide)

theorem rd32SeedLo : Statement .rd32SeedLo := of_word (by decide)

theorem rd32SeedHi : Statement .rd32SeedHi := of_word (by decide)

theorem wr32SeedLo (wdata : Word) : Statement (.wr32SeedLo wdata) :=
  of_word (i := .wr32SeedLo wdata) (show (Instr.wr32SeedLo 0).word.getLsbD 12 = false ∧ (Instr.wr32SeedLo 0).word.extractLsb' 13 2 ≠ 3 from by decide)

theorem wr32SeedHi (wdata : Word) : Statement (.wr32SeedHi wdata) :=
  of_word (i := .wr32SeedHi wdata) (show (Instr.wr32SeedHi 0).word.getLsbD 12 = false ∧ (Instr.wr32SeedHi 0).word.extractLsb' 13 2 ≠ 3 from by decide)

theorem rd32XoroutLo : Statement .rd32XoroutLo := of_word (by decide)

theorem rd32XoroutHi : Statement .rd32XoroutHi := of_word (by decide)

theorem wr32XoroutLo (wdata : Word) : Statement (.wr32XoroutLo wdata) :=
  of_word (i := .wr32XoroutLo wdata) (show (Instr.wr32XoroutLo 0).word.getLsbD 12 = false ∧ (Instr.wr32XoroutLo 0).word.extractLsb' 13 2 ≠ 3 from by decide)

theorem wr32XoroutHi (wdata : Word) : Statement (.wr32XoroutHi wdata) :=
  of_word (i := .wr32XoroutHi wdata) (show (Instr.wr32XoroutHi 0).word.getLsbD 12 = false ∧ (Instr.wr32XoroutHi 0).word.extractLsb' 13 2 ≠ 3 from by decide)

theorem rd32AccLo : Statement .rd32AccLo := of_word (by decide)

theorem rd32AccHi : Statement .rd32AccHi := of_word (by decide)

theorem wr32AccLo (wdata : Word) : Statement (.wr32AccLo wdata) :=
  of_word (i := .wr32AccLo wdata) (show (Instr.wr32AccLo 0).word.getLsbD 12 = false ∧ (Instr.wr32AccLo 0).word.extractLsb' 13 2 ≠ 3 from by decide)

theorem wr32AccHi (wdata : Word) : Statement (.wr32AccHi wdata) :=
  of_word (i := .wr32AccHi wdata) (show (Instr.wr32AccHi 0).word.getLsbD 12 = false ∧ (Instr.wr32AccHi 0).word.extractLsb' 13 2 ≠ 3 from by decide)

theorem wr8Data (lane : BitVec 2) (wdata : Word) : Statement (.wr8Data lane wdata) := by
  revert lane
  exact (by decide : ∀ lane : BitVec 2, (encode (.wr8Data lane 0)).rsv = false ∧ (encode (.wr8Data lane 0)).sz ≠ 3)

theorem wr16Data (lane : BitVec 2) (wdata : Word) : Statement (.wr16Data lane wdata) := by
  revert lane
  exact (by decide : ∀ lane : BitVec 2, (encode (.wr16Data lane 0)).rsv = false ∧ (encode (.wr16Data lane 0)).sz ≠ 3)

theorem wr32Data (wdata : Word) : Statement (.wr32Data wdata) :=
  of_word (i := .wr32Data wdata) (show (Instr.wr32Data 0).word.getLsbD 12 = false ∧ (Instr.wr32Data 0).word.extractLsb' 13 2 ≠ 3 from by decide)

theorem rd32Data : Statement .rd32Data := of_word (by decide)

theorem rd32ResultLo : Statement .rd32ResultLo := of_word (by decide)

theorem rd32ResultHi : Statement .rd32ResultHi := of_word (by decide)

theorem rd8Digest (k : BitVec 3) : Statement (.rd8Digest k) :=
  (by decide : ∀ k : BitVec 3, (encode (.rd8Digest k)).rsv = false ∧ (encode (.rd8Digest k)).sz ≠ 3) k

theorem rd16Digest (k : BitVec 3) : Statement (.rd16Digest k) :=
  (by decide : ∀ k : BitVec 3, (encode (.rd16Digest k)).rsv = false ∧ (encode (.rd16Digest k)).sz ≠ 3) k

theorem rd32Digest (k : BitVec 3) : Statement (.rd32Digest k) :=
  (by decide : ∀ k : BitVec 3, (encode (.rd32Digest k)).rsv = false ∧ (encode (.rd32Digest k)).sz ≠ 3) k

theorem rd32Table (i : BitVec 8) (h : BitVec 1) : Statement (.rd32Table i h) := by
  constructor
  · simp [encode, Instr.word, Transaction.rsv]
  · intro e
    have := congrArg (BitVec.getLsbD · 0) e
    simp [encode, Instr.word, Transaction.sz] at this

end Sys2Proof.Laws.EncodedWord
end

