-- ==== Sys2Proof/Laws/Step.lean ====
section
/-! SUPPORT. Everything a step can do, said once; runs of steps. -/

namespace Sys2Proof.Machine

/-- Everything a step that answers `t` can have done: nothing was pending and a build ended; a reset; an operation
after the hold; a bus error after the hold. -/
theorem step_cases {s t : State} (h : step s = .next t) :
    (s.pending = [] ∧ t = s.hold) ∨
    (∃ a rest, s.pending = .reset a :: rest ∧ t = ({ s with pending := rest } : State).resetBlock) ∨
    (∃ tr rest i, s.pending = .transaction tr :: rest ∧ decode tr = .op i ∧
      exec i ({ s with pending := rest } : State).hold = .next t) ∨
    (∃ tr rest c, s.pending = .transaction tr :: rest ∧ decode tr = .busError c ∧
      t = busError c tr ({ s with pending := rest } : State).hold) := by
  unfold step at h
  split at h
  · exact .inl ⟨‹_›, by simpa [idle] using h.symm⟩
  · rename_i e rest hp
    cases e with
    | reset a => exact .inr (.inl ⟨a, rest, hp, by simpa [runEvent] using h.symm⟩)
    | transaction tr =>
      simp only [runEvent, runTransaction] at h
      split at h
      · exact .inr (.inr (.inl ⟨tr, rest, _, hp, ‹_›, h⟩))
      · exact .inr (.inr (.inr ⟨tr, rest, _, hp, ‹_›, by simpa using h.symm⟩))
      · simp at h

theorem step_of_nil {s : State} (h : s.pending = []) : step s = .next s.hold := by
  simp [step, h, idle]

theorem step_of_reset {s : State} {a rest} (h : s.pending = .reset a :: rest) :
    step s = .next ({ s with pending := rest } : State).resetBlock := by
  simp [step, h, runEvent]

theorem step_of_op {s : State} {tr rest i} (h : s.pending = .transaction tr :: rest) (hd : decode tr = .op i) :
    step s = exec i ({ s with pending := rest } : State).hold := by
  simp [step, h, runEvent, runTransaction, hd]

theorem step_of_busError {s : State} {tr rest c} (h : s.pending = .transaction tr :: rest)
    (hd : decode tr = .busError c) :
    step s = .next (busError c tr ({ s with pending := rest } : State).hold) := by
  simp [step, h, runEvent, runTransaction, hd]

/-- A run of any machine goes on from the state its first step answers. -/
theorem coreRun_succ_of_next (M : Host.Core) {s t : M.State} (h : M.step s = .next t) (k : Nat) :
    M.run (k + 1) s = M.run k t := by
  simp [Host.Core.run, h]

/-- A run of `j + k` steps of any machine is a run of `j`, then one of `k`. -/
theorem coreRun_add (M : Host.Core) {j : Nat} {s t : M.State} (h : M.run j s = .next t) (k : Nat) :
    M.run (j + k) s = M.run k t := by
  induction j generalizing s with
  | zero =>
    simp only [Host.Core.run, Host.Outcome.next.injEq] at h
    rw [Nat.zero_add, h]
  | succ j ih =>
    rw [Nat.succ_add]
    cases hs : M.step s with
    | next u => rw [coreRun_succ_of_next M hs] at h ⊢; exact ih h
    | fault r => simp [Host.Core.run, hs] at h
    | refused r => simp [Host.Core.run, hs] at h

@[simp] theorem run_zero (s : State) : core.run 0 s = .next s := rfl

/-- A run goes on from the state its first step answers. -/
theorem run_succ_of_next {s t : State} (h : step s = .next t) (k : Nat) : core.run (k + 1) s = core.run k t :=
  coreRun_succ_of_next core h k

/-- A run of `j + k` steps is a run of `j`, then one of `k`. -/
theorem run_add {s t : State} {j : Nat} (h : core.run j s = .next t) (k : Nat) : core.run (j + k) s = core.run k t :=
  coreRun_add core h k

/-- A run of issued operations takes the first, after its hold, and goes on with the others. -/
theorem run_issue_cons {s u : State} {i : Instr} {is : List Instr} {rest : List HostEvent}
    (hp : s.pending = issue (i :: is) ++ rest) (hd : decode (encode i) = .op i)
    (he : exec i ({ s with pending := issue is ++ rest } : State).hold = .next u) :
    core.run (i :: is).length s = core.run is.length u := by
  have hp' : s.pending = .transaction (encode i) :: (issue is ++ rest) := by simpa [issue] using hp
  exact run_succ_of_next ((step_of_op hp' hd).trans he) _

end Sys2Proof.Machine
end

