-- ==== Sys2Proof/Laws/Table.lean ====
section
/-! SUPPORT. The shift steps are linear over GF(2); bits that do not reach the tested end in eight steps are only
shifted; a fold as a shift step of eight; the table RAM's entries. -/

namespace Sys2Proof.Machine

/-- One shift step is linear in the accumulator, for every polynomial and either bit order. -/
theorem shiftStep_xor (P : DWord) (r : Bool) (a b : DWord) :
    shiftStep P r (a ^^^ b) = shiftStep P r a ^^^ shiftStep P r b := by
  cases r
  · simp only [shiftStep, shiftStepNormal, BitVec.getLsbD_xor, Bool.false_eq_true, if_false]
    cases a.getLsbD 63 <;> cases b.getLsbD 63 <;> (simp; ext i; simp; try grind)
  · simp only [shiftStep, shiftStepReflected, BitVec.getLsbD_xor, if_true]
    cases a.getLsbD 0 <;> cases b.getLsbD 0 <;> (simp; ext i; simp; try grind)

/-- Any number of shift steps is linear in the accumulator. -/
theorem shiftStep_iterate_xor (P : DWord) (r : Bool) (n : Nat) (a b : DWord) :
    (shiftStep P r)^[n] (a ^^^ b) = (shiftStep P r)^[n] a ^^^ (shiftStep P r)^[n] b := by
  induction n generalizing a b with
  | zero => rfl
  | succ n ih => simp only [Function.iterate_succ, Function.comp_apply, shiftStep_xor, ih]

theorem shiftStep8_xor (P : DWord) (r : Bool) (a b : DWord) :
    shiftStep8 P r (a ^^^ b) = shiftStep8 P r a ^^^ shiftStep8 P r b :=
  shiftStep_iterate_xor P r 8 a b

/-- A zero accumulator stays zero. -/
@[simp] theorem shiftStep_zero (P : DWord) (r : Bool) : shiftStep P r 0#64 = 0#64 := by
  cases r <;> simp [shiftStep, shiftStepNormal, shiftStepReflected]

@[simp] theorem shiftStep8_zero (P : DWord) (r : Bool) : shiftStep8 P r 0#64 = 0#64 := by
  simp [shiftStep8, Function.iterate_succ, Function.comp]

/-- Where a byte enters the accumulator is linear in the byte. -/
theorem enterByte_xor (r : Bool) (i j : Byte) : enterByte r (i ^^^ j) = enterByte r i ^^^ enterByte r j := by
  cases r <;> simp [enterByte]
  · ext k; simp; try grind

/-- Reflected: `n` steps of a value whose low `n` bits are 0 only shift it right. -/
theorem shiftStep_iterate_reflected (P : DWord) (n : Nat) (a : DWord) (h : ∀ j < n, a.getLsbD j = false) :
    (shiftStep P true)^[n] a = a >>> n := by
  induction n generalizing a with
  | zero => simp
  | succ n ih =>
    have h0 : a.getLsbD 0 = false := h 0 (Nat.succ_pos n)
    have hstep : shiftStep P true a = a >>> 1 := by
      simp only [shiftStep, shiftStepReflected, h0, if_true, Bool.false_eq_true, if_false]
    rw [Function.iterate_succ, Function.comp_apply, hstep, ih]
    · rw [← BitVec.shiftRight_add, Nat.add_comm]
    · intro j hj
      have := h (1 + j) (by omega)
      simpa using this

/-- MSB-first: `n` steps of a value whose high `n` bits are 0 only shift it left. -/
theorem shiftStep_iterate_normal (P : DWord) (n : Nat) (hn : n ≤ 64) (a : DWord)
    (h : ∀ j < n, a.getLsbD (63 - j) = false) : (shiftStep P false)^[n] a = a <<< n := by
  induction n generalizing a with
  | zero => simp
  | succ n ih =>
    have h0 : a.getLsbD 63 = false := h 0 (Nat.succ_pos n)
    have hstep : shiftStep P false a = a <<< 1 := by
      simp only [shiftStep, shiftStepNormal, h0, Bool.false_eq_true, if_false]
    rw [Function.iterate_succ, Function.comp_apply, hstep, ih (by omega)]
    · rw [← BitVec.shiftLeft_add, Nat.add_comm]
    · intro j hj
      have := h (j + 1) (by omega)
      rw [BitVec.getLsbD_shiftLeft, Nat.sub_right_comm 63 j 1, Nat.sub_sub, Nat.add_comm 1 j, this, Bool.and_false]

/-- The entry of the table RAM the builder writes for index `i` (R38). -/
@[simp] theorem fullTable_getElem (P : DWord) (r : Bool) (i : Fin 256) :
    (fullTable P r)[i] = tableEntry P r (BitVec.ofNat 8 i.val) :=
  Vector.getElem_ofFn i.isLt

@[simp] theorem foldMessage_nil (P : DWord) (r : Bool) (a : DWord) : foldMessage P r a [] = a := rfl

@[simp] theorem foldMessage_cons (P : DWord) (r : Bool) (a : DWord) (b : Byte) (m : List Byte) :
    foldMessage P r a (b :: m) = foldMessage P r (fold P r a b) m := rfl

@[simp] theorem foldMessage_append (P : DWord) (r : Bool) (a : DWord) (m n : List Byte) :
    foldMessage P r a (m ++ n) = foldMessage P r (foldMessage P r a m) n := by
  simp [foldMessage]

end Sys2Proof.Machine
end

