-- ==== Sys2Proof/Tests/Slice0.lean ====
section
/-! SUPPORT. Tests of the model. Every expected value is from the spec: words from spec/30_encoding.md rules R85 and
R91, values from spec/95_test_vectors.md and the examples of the rules. The last part gives, for every statement that
has hypotheses, a state and operands that meet them. -/

namespace Sys2Proof.Tests

open Sys2Proof Sys2Proof.Machine

/-! ### Helpers -/

/-- The block after reset and after its table build, without a table RAM. -/
def st : State := { State.reset with tableRam := none, building := false }

/-- The block after reset and after its table build, with a table RAM. -/
def ramSt : State := { State.reset with tableRam := some (fullTable Config.polyReset true), building := false }

/-- A state in which the next event is a transaction. -/
def issued (tw : Half) (v : Word) (s : State) : State := { s with pending := [.transaction ⟨tw, v⟩] }

/-- The state one operation leaves. -/
def after (i : Instr) (s : State) : Option State :=
  match exec i s with
  | .next t => some t
  | .fault _ => none
  | .refused _ => none

/-- The value one operation answers. -/
def answer (i : Instr) (s : State) : Option Word :=
  (after i s).bind fun t => t.responses.getLast?.bind fun r => if r.code = .okay then r.rdata else none

/-- The state one step leaves, from `s` with one transaction issued. -/
def stepped (tw : Half) (v : Word) (s : State) : Option State :=
  match step (issued tw v s) with
  | .next t => some t
  | .fault _ => none
  | .refused _ => none

/-! ### WellFormed: one ill-formed term per check, refused -/

theorem test_wf_refuses_odd_wr16Data : (Instr.wr16Data 1 0).wf = false ∧ (Instr.wr16Data 3 0).wf = false := by decide

theorem test_wf_refuses_odd_rd16Digest : (Instr.rd16Digest 1).wf = false ∧ (Instr.rd16Digest 7).wf = false := by decide

theorem test_wf_refuses_rd32Digest :
    (Instr.rd32Digest 1).wf = false ∧ (Instr.rd32Digest 2).wf = false ∧ (Instr.rd32Digest 6).wf = false := by decide

theorem test_wf_admits_boundaries :
    (Instr.wr16Data 2 0).wf = true ∧ (Instr.rd16Digest 6).wf = true ∧ (Instr.rd32Digest 4).wf = true := by decide

/-! ### Decoding: the word of every row, bit by bit, W SS 0 OFF (R80, R85) -/

theorem test_decode_control :
    decodeTableWord 16 0b0100000000000000 = some .rd32Id ∧
    decodeTableWord 16 0b0100000000000100 = some .rd32Caps ∧
    decodeTableWord 16 0b0100000000001000 = some .rd32Ctrl ∧
    decodeTableWord 48 0x00000001C008 = some (.wr32Ctrl 1) ∧
    decodeTableWord 16 0b0100000000001100 = some .rd32Status ∧
    decodeTableWord 48 0x00000001C00C = some (.wr32Status 1) ∧
    decodeTableWord 48 0x00000003C010 = some (.wr32Cmd 3) ∧
    decodeTableWord 16 0b0100000000010000 = some .rd32Cmd ∧
    decodeTableWord 16 0b0100000000010100 = some .rd32Bytecount ∧
    decodeTableWord 16 0b0100000000011000 = some .rd32Errinfo := by decide

theorem test_decode_configuration :
    decode ⟨0b0100000000100000, 0⟩ = .op .rd32PolyLo ∧
    decode ⟨0b0100000000100100, 0⟩ = .op .rd32PolyHi ∧
    decode ⟨0b1100000000100000, 0xA9EA3693⟩ = .op (.wr32PolyLo 0xA9EA3693) ∧
    decode ⟨0b1100000000100100, 0x42F0E1EB⟩ = .op (.wr32PolyHi 0x42F0E1EB) ∧
    decode ⟨0b0100000000101000, 0⟩ = .op .rd32SeedLo ∧
    decode ⟨0b0100000000101100, 0⟩ = .op .rd32SeedHi ∧
    decode ⟨0b1100000000101000, 5⟩ = .op (.wr32SeedLo 5) ∧
    decode ⟨0b1100000000101100, 0x12345678⟩ = .op (.wr32SeedHi 0x12345678) ∧
    decode ⟨0b0100000000110000, 0⟩ = .op .rd32XoroutLo ∧
    decode ⟨0b0100000000110100, 0⟩ = .op .rd32XoroutHi ∧
    decode ⟨0b1100000000110000, 0xFFFFFFFF⟩ = .op (.wr32XoroutLo 0xFFFFFFFF) ∧
    decode ⟨0b1100000000110100, 0xFFFFFFFF⟩ = .op (.wr32XoroutHi 0xFFFFFFFF) ∧
    decode ⟨0b0100000000111000, 0⟩ = .op .rd32AccLo ∧
    decode ⟨0b0100000000111100, 0⟩ = .op .rd32AccHi ∧
    decode ⟨0b1100000000111000, 0x89ABCDEF⟩ = .op (.wr32AccLo 0x89ABCDEF) ∧
    decode ⟨0b1100000000111100, 0x01234567⟩ = .op (.wr32AccHi 0x01234567) := by decide

theorem test_decode_datapath :
    decode ⟨0b1000000001000000, 0x39⟩ = .op (.wr8Data 0 0x39) ∧
    decode ⟨0b1000000001000011, 0x63⟩ = .op (.wr8Data 3 0x63) ∧
    decode ⟨0b1010000001000000, 0x6261⟩ = .op (.wr16Data 0 0x6261) ∧
    decode ⟨0b1010000001000010, 0x6162⟩ = .op (.wr16Data 2 0x6162) ∧
    decode ⟨0b1100000001000000, 0x74736574⟩ = .op (.wr32Data 0x74736574) ∧
    decode ⟨0b0100000001000000, 0⟩ = .op .rd32Data ∧
    decode ⟨0b0100000001001000, 0⟩ = .op .rd32ResultLo ∧
    decode ⟨0b0100000001001100, 0⟩ = .op .rd32ResultHi ∧
    decode ⟨0b0000000001010011, 0⟩ = .op (.rd8Digest 3) ∧
    decode ⟨0b0010000001010110, 0⟩ = .op (.rd16Digest 6) ∧
    decode ⟨0b0100000001010100, 0⟩ = .op (.rd32Digest 4) ∧
    decode ⟨0b0100100000001000, 0⟩ = .op (.rd32Table 1 0) ∧
    decode ⟨0b0100111111111100, 0⟩ = .op (.rd32Table 255 1) := by decide

/-- R89: a word with RSV = 1 is refused by name, by the decoder and by the step. -/
theorem test_reserved_bit_refused :
    decode ⟨0x5000, 0⟩ = .notATransaction ∧ decodeTableWord 16 0x5000 = none ∧
    (match step (issued 0x5000 0 st) with | .refused .notATransaction => true | _ => false) = true := by decide

/-- spec/95_test_vectors.md section 7: the causes. -/
theorem test_cause_unmapped : [0x401C, 0x4044, 0x47FC].map (fun tw => decode ⟨tw, 0⟩) =
    List.replicate 3 (.busError .unmapped) := by decide

theorem test_cause_badSize : [0x2008, 0x0040, 0x0010, 0x8008, 0x2800, 0x0001].map (fun tw => decode ⟨tw, 0⟩) =
    List.replicate 6 (.busError .badSize) := by decide

theorem test_cause_misaligned : [0x400A, 0xA041, 0x2051, 0x4052, 0x4042, 0x4802].map (fun tw => decode ⟨tw, 0⟩) =
    List.replicate 6 (.busError .misaligned) := by decide

theorem test_cause_readOnly : [0xC000, 0x8001, 0xC048, 0x8050, 0xC800].map (fun tw => decode ⟨tw, 0⟩) =
    List.replicate 5 (.busError .readOnly) := by decide

theorem test_cause_badSz64 : [0x6040, 0xE040].map (fun tw => decode ⟨tw, 0⟩) =
    List.replicate 2 (.busError .badSz64) := by decide

/-- spec/95_test_vectors.md section 7, priority: 5 before 1, 3 before 4, 4 before 2. -/
theorem test_error_priority :
    decode ⟨0x601C, 0⟩ = .busError .badSz64 ∧ decode ⟨0xC002, 0⟩ = .busError .misaligned ∧
    decode ⟨0x8001, 0⟩ = .busError .readOnly := by decide

/-- spec/95_test_vectors.md section 7: STATUS and ERRINFO after a first error; P5 steps 1 and 2: the second is not
recorded. -/
theorem test_error_record :
    (stepped 0x401C 0 st).map statusWord = some 0x00000011 ∧ (stepped 0x401C 0 st).map errinfoWord = some 0x0000401C ∧
    (stepped 0xE040 0 st).map statusWord = some 0x00000051 ∧ (stepped 0xE040 0 st).map errinfoWord = some 0x0000E040 ∧
    (stepped 0x401C 0 st).map (·.responses) = some [⟨.slverr, some 0⟩] ∧
    (stepped 0xC000 0 st).map (·.responses) = some [⟨.slverr, none⟩] ∧
    (stepped 0xC000 0 { st with err := true, cause := 1, errinfo := 0x401C }).map statusWord = some 0x00000011 ∧
    (stepped 0xC000 0 { st with err := true, cause := 1, errinfo := 0x401C }).map errinfoWord = some 0x0000401C := by
  decide

/-- spec/95_test_vectors.md section 7, last line: a misaligned DATA write folds and counts nothing. -/
theorem test_erroneous_data_write :
    (stepped 0xA041 0x6261 { st with acc := 7, bytecount := 3 }).map (·.acc) = some 7 ∧
    (stepped 0xA041 0x6261 { st with acc := 7, bytecount := 3 }).map (·.bytecount) = some 3 := by decide

/-! ### Identification, control, status, command (spec/95_test_vectors.md section 6) -/

theorem test_rd32Id : answer .rd32Id st = some 0x34365243 := by decide

theorem test_caps_words :
    capsWord .table .one = 0x00004000 ∧ capsWord .table .two = 0x00004010 ∧ capsWord .parallel .four = 0x00004021 := by
  decide

theorem test_rd32Caps : answer .rd32Caps st = some (capsWord Config.impl Config.lanes) := rfl

theorem test_rd32Ctrl :
    answer .rd32Ctrl st = some 1 ∧ answer .rd32Ctrl { st with reflect := false } = some 0 := by decide

theorem test_wr32Ctrl : (after (.wr32Ctrl 0xFFFFFFFE) st).map (·.reflect) = some false := by decide

theorem test_rd32Status :
    answer .rd32Status st = some 0 ∧ answer .rd32Status { st with err := true, cause := 1 } = some 0x11 := by decide

theorem test_wr32Status_keeps :
    (after (.wr32Status 0xF0) { st with err := true, cause := 1, errinfo := 0x401C }).map statusWord = some 0x11 := by
  decide

theorem test_wr32Status_clears :
    (after (.wr32Status 1) { st with err := true, cause := 1, errinfo := 0x401C }).map
      (fun t => (statusWord t, t.errinfo)) = some (0, 0x401C) := by decide

theorem test_wr32Cmd_init :
    (after (.wr32Cmd 1) { st with seed := 0xFFFFFFFFFFFFFFFF, acc := 9, bytecount := 7 }).map
      (fun t => (t.acc, t.bytecount)) = some (0xFFFFFFFFFFFFFFFF, 0) := by decide

/-- SRST wins over INIT: ACC is 0, not SEED. -/
theorem test_wr32Cmd_srst_wins :
    (after (.wr32Cmd 3) { st with seed := 5, acc := 9, poly := 0, reflect := false, err := true, errinfo := 0x401C }).map
      (fun t => (t.acc, t.seed, t.poly, t.reflect, t.err, t.errinfo)) =
      some (0, 0, 0xC96C5795D7870F42, true, false, 0) := by decide

theorem test_rd32Cmd : answer .rd32Cmd { st with acc := 9 } = some 0 := by decide

theorem test_rd32Bytecount : answer .rd32Bytecount { st with bytecount := 9 } = some 9 := by decide

theorem test_rd32Errinfo : answer .rd32Errinfo { st with errinfo := 0xA041 } = some 0x0000A041 := by decide

/-! ### Configuration (spec/95_test_vectors.md section 6; the examples of R172 to R185) -/

theorem test_rd32Poly : answer .rd32PolyLo st = some 0xD7870F42 ∧ answer .rd32PolyHi st = some 0xC96C5795 := by decide

theorem test_wr32PolyLo : (after (.wr32PolyLo 0xA9EA3693) st).map (·.poly) = some 0xC96C5795A9EA3693 := by decide

theorem test_wr32PolyHi : (after (.wr32PolyHi 0) st).map (·.poly) = some 0x00000000D7870F42 := by decide

theorem test_rd32Seed :
    answer .rd32SeedLo { st with seed := 0x1234567800000005 } = some 5 ∧
    answer .rd32SeedHi { st with seed := 0x1234567800000005 } = some 0x12345678 := by decide

theorem test_wr32SeedLo : (after (.wr32SeedLo 0xFFFFFFFF) st).map (·.seed) = some 0x00000000FFFFFFFF := by decide

theorem test_wr32SeedHi :
    (after (.wr32SeedHi 0x12345678) st).map (fun t => (t.seed, t.acc)) = some (0x1234567800000000, 0) := by decide

theorem test_rd32Xorout :
    answer .rd32XoroutLo { st with xorout := 0x00000001FFFFFFFF } = some 0xFFFFFFFF ∧
    answer .rd32XoroutHi { st with xorout := 0x00000001FFFFFFFF } = some 1 := by decide

theorem test_wr32XoroutLo :
    (after (.wr32XoroutLo 0xFFFFFFFF) st).map (fun t => (t.xorout, t.acc, loHalf t.result, hiHalf t.result)) =
      some (0x00000000FFFFFFFF, 0, 0xFFFFFFFF, 0) := by decide

theorem test_wr32XoroutHi :
    (after (.wr32XoroutHi 0xFFFFFFFF) st).map (fun t => hiHalf t.result) = some 0xFFFFFFFF := by decide

theorem test_rd32Acc :
    answer .rd32AccLo { st with acc := 0xC621568C6AFEAD61 } = some 0x6AFEAD61 ∧
    answer .rd32AccHi { st with acc := 0xC621568C6AFEAD61 } = some 0xC621568C := by decide

theorem test_wr32AccLo :
    (after (.wr32AccLo 0x5FCEEAC1) { st with bytecount := 3 }).map (fun t => (t.acc, t.bytecount)) =
      some (0x000000005FCEEAC1, 3) := by decide

theorem test_wr32AccHi :
    (after (.wr32AccHi 0xFE753EB7) { st with acc := 0x000000005FCEEAC1 }).map (·.acc) = some 0xFE753EB75FCEEAC1 := by
  decide

/-! ### Table and datapath (spec/95_test_vectors.md sections 2 and 3) -/

theorem test_rd32Table_reflected :
    answer (.rd32Table 1 0) st = some 0x03A75F6F ∧ answer (.rd32Table 1 1) st = some 0xB32E4CBE ∧
    answer (.rd32Table 0xFF 0) st = some 0x64673F59 ∧ answer (.rd32Table 0xFF 1) st = some 0xE0ADA173 := by decide

theorem test_rd32Table_normal :
    answer (.rd32Table 0x80 0) { st with poly := 0x42F0E1EBA9EA3693, reflect := false } = some 0x7D3274CD ∧
    answer (.rd32Table 0x80 1) { st with poly := 0x42F0E1EBA9EA3693, reflect := false } = some 0xF6FAE5C0 := by decide

/-- Section 3.3, the lane does not matter and bits 31:8 are ignored; section 3.2, step 2 of the trace of "test". -/
theorem test_wr8Data :
    (after (.wr8Data 3 0x80) st).map (·.acc) = some 0xC96C5795D7870F42 ∧
    (after (.wr8Data 0 0xFFFFFF61) st).map (·.acc) = some 0x2CAF25044A02145C ∧
    (after (.wr8Data 1 0x65) { st with acc := 0x99CA0B06E7197349 }).map (·.acc) = some 0x77DFCCF6A41037B4 ∧
    (after (.wr8Data 0 0x80) { st with bytecount := 0xFFFFFFFF }).map (·.bytecount) = some 0 := by decide

/-- Section 3.6: the MSB-first order. -/
theorem test_wr8Data_normal :
    (after (.wr8Data 0 0x61) { st with poly := 0x42F0E1EBA9EA3693, reflect := false }).map (·.acc) =
      some 0x548F120162451C62 := by decide

theorem test_wr16Data :
    (after (.wr16Data 0 0xFFFF6261) st).map (fun t => (t.acc, t.bytecount)) = some (0xFE753EB75FCEEAC1, 2) ∧
    (after (.wr16Data 2 0x6162) st).map (·.acc) = some 0x44E4CEE8115806E2 := by decide

theorem test_wr32Data :
    (after (.wr32Data 0x74736574) st).map (fun t => (t.acc, t.bytecount)) = some (0x0EB07B92DF17EAEE, 4) ∧
    (after (.wr32Data 0x6161FFFF) st).map (·.acc) = some 0x0F6A7003BB78D039 ∧
    (after (.wr32Data 0xFFFF6161) st).map (·.acc) = some 0xEC38F8642316E598 := by decide

/-- P3, step 5: the MSB-first order. -/
theorem test_wr32Data_normal :
    (after (.wr32Data 0x34333231) { st with poly := 0x42F0E1EBA9EA3693, reflect := false }).map (·.acc) =
      some 0x1E360C1891A60F78 := by decide

theorem test_rd32Data : answer .rd32Data { st with acc := 9 } = some 0 := by decide

/-- P2, steps 9 and 10. -/
theorem test_rd32Result :
    answer .rd32ResultLo { st with acc := 0x66A2364420E6C605, xorout := 0xFFFFFFFFFFFFFFFF } = some 0xDF1939FA ∧
    answer .rd32ResultHi { st with acc := 0x66A2364420E6C605, xorout := 0xFFFFFFFFFFFFFFFF } = some 0x995DC9BB := by
  decide

/-- P4, steps 4 to 11, at k = 0, 2 and 7. -/
theorem test_rd8Digest :
    answer (.rd8Digest 0) { st with acc := 0x1918D925371E013C } = some 0x19 ∧
    answer (.rd8Digest 2) { st with acc := 0x1918D925371E013C } = some 0xD9 ∧
    answer (.rd8Digest 7) { st with acc := 0x1918D925371E013C } = some 0x3C := by decide

theorem test_rd16Digest :
    answer (.rd16Digest 0) { st with acc := 0x2B9C7EE4E2780C8A } = some 0x9C2B ∧
    answer (.rd16Digest 6) { st with acc := 0x2B9C7EE4E2780C8A } = some 0x8A0C := by decide

theorem test_rd32Digest :
    answer (.rd32Digest 0) { st with acc := 0x2B9C7EE4E2780C8A } = some 0xE47E9C2B ∧
    answer (.rd32Digest 4) { st with acc := 0x2B9C7EE4E2780C8A } = some 0x8A0C78E2 := by decide

/-- Section 2.3: POLY = 0 makes the fold a plain shift; POLY all ones. -/
theorem test_table_corners :
    fold 0 true 0x0123456789ABCDEF 0 = 0x000123456789ABCD ∧ tableEntry 0xFFFFFFFFFFFFFFFF true 1 = 0x0200000000000000 ∧
    tableEntry 0xD800000000000000 true 1 = 0x01B0000000000000 := by decide

/-! ### Notation (R91, R92) and the step -/

theorem test_notation :
    (Asm.rd32 .id).assemble = ⟨0x4000, 0⟩ ∧ (Asm.wr32 .ctrl 0).assemble = ⟨0xC008, 0⟩ ∧
    (Asm.mk .b1 .data 0 (some 0x39)).assemble = ⟨0x8040, 0x39⟩ ∧
    (Asm.mk .b1 .digest 3 none).assemble = ⟨0x0053, 0⟩ ∧ (Asm.mk .b4 .table 0x7FC none).assemble = ⟨0x4FFC, 0⟩ := by
  decide

theorem test_text :
    (asmOf (.wr8Data 0 0x39)).text = "WR8 DATA, 0x00000039" ∧ (asmOf (.rd8Digest 3)).text = "RD8 DIGEST+0x003" := by
  decide

/-- P1, steps 1 to 3: "123456789". -/
theorem test_feed :
    feedBytes [0x31, 0x32, 0x33, 0x34, 0x35, 0x36, 0x37, 0x38, 0x39] =
      [.wr32Data 0x34333231, .wr32Data 0x38373635, .wr8Data 0 0x39] := by decide

/-- The very next step after reset runs the word placed: `WR8 DATA, 0x80` (R134). -/
theorem test_withFetchWord :
    (match step (State.reset.withFetchWord 48 0x000000808040) with
      | .next t => t.acc == 0xC96C5795D7870F42 && t.bytecount == 1
      | _ => false) = true := by decide

/-- Reset, whatever the state, with a transaction in progress: no effect and no response (R231). -/
theorem test_reset_event :
    (match step { st with acc := 9, err := true, pending := [.reset (some ⟨0x8040, 0x61⟩)] } with
      | .next t => t.acc == 0 && t.bytecount == 0 && t.err == false && t.responses == []
      | _ => false) = true := by decide

/-- R240: a 32-bit DATA write takes 4, 2 or 1 cycles, a one-byte write always 1. -/
theorem test_fold_cycles :
    foldCycles .one 4 = 4 ∧ foldCycles .two 4 = 2 ∧ foldCycles .four 4 = 1 ∧ foldCycles .four 1 = 1 := by decide

/-! ### Witnesses: states and operands that meet the hypotheses of each statement that has some -/

theorem inv_st : Inv st where
  cause_clear := fun _ => rfl
  error_recorded := fun h => absurd h (by decide)
  errinfo_illegal := ⟨.badSize, by decide⟩
  building_has_ram := fun h => absurd h (by decide)
  ram_agrees := fun _ _ h => absurd h (by simp [st])

theorem inv_ramSt : Inv ramSt where
  cause_clear := fun _ => rfl
  error_recorded := fun h => absurd h (by decide)
  errinfo_illegal := ⟨.badSize, by decide⟩
  building_has_ram := fun h => absurd h (by decide)
  ram_agrees := by
    intro _ ram h i
    have : ram = fullTable Config.polyReset true := by simpa [ramSt] using h.symm
    subst this
    exact fullTable_getElem _ _ i

/-- A state with an error recorded. -/
def errSt : State := { st with err := true, cause := 1, errinfo := 0x401C }

theorem inv_errSt : Inv errSt where
  cause_clear := fun h => absurd h (by decide)
  error_recorded := fun _ => ⟨.unmapped, by decide, by decide⟩
  errinfo_illegal := ⟨.unmapped, by decide⟩
  building_has_ram := fun h => absurd h (by decide)
  ram_agrees := fun _ _ h => absurd h (by simp [errSt, st])

theorem witness_DecodeOfEncode :
    (Instr.wr8Data 3 0xFFFFFFFF).wf = true ∧ (Instr.wr16Data 2 0).wf = true ∧ (Instr.rd8Digest 7).wf = true ∧
    (Instr.rd16Digest 6).wf = true ∧ (Instr.rd32Digest 4).wf = true ∧ (Instr.rd32Table 255 1).wf = true := by decide

theorem witness_EncodeOfDecode :
    decode ⟨0xA042, 0x6162⟩ = .op (.wr16Data 2 0x6162) ∧ (⟨0xA042, 0x6162⟩ : Transaction).isWrite = true ∧
    decode ⟨0x4FFC, 7⟩ = .op (.rd32Table 255 1) ∧ (⟨0x4FFC, 7⟩ : Transaction).isWrite = false := by decide

theorem witness_RowsAreDisjoint :
    (rows[(⟨26, by decide⟩ : Fin rows.length)]).selects 0x8043 = true ∧
    (rows[(⟨35, by decide⟩ : Fin rows.length)]).selects 0x4FFC = true := by decide

/-- The clauses of DecodeFollowsTestOrder, each at boundary words. -/
theorem witness_DecodeFollowsTestOrder_badSz64 :
    [0x6000, 0xEFFF, 0x601C].all (fun tw : Half => !tw.getLsbD 12 && tw.toNat / 8192 % 4 == 3) = true := by decide

theorem witness_DecodeFollowsTestOrder_unmapped :
    [0x001C, 0x001F, 0x8044, 0xA047, 0x4058, 0x47FF].all (fun tw : Half =>
      !tw.getLsbD 12 && tw.toNat / 8192 % 4 != 3 && decide (
        (0x01C ≤ tw.toNat % 4096 ∧ tw.toNat % 4096 ≤ 0x01F) ∨ (0x044 ≤ tw.toNat % 4096 ∧ tw.toNat % 4096 ≤ 0x047) ∨
        (0x058 ≤ tw.toNat % 4096 ∧ tw.toNat % 4096 ≤ 0x7FF))) = true := by decide

theorem witness_DecodeFollowsTestOrder_mapped :
    [0x401B, 0x2043, 0x4057, 0x4801, 0xC002, 0xC01B, 0xC048, 0x8057, 0xCFFC, 0x0000, 0x8010, 0x4043, 0x0800,
      0x4000, 0x8043, 0x0057, 0x4FFC].all (fun tw : Half =>
        !tw.getLsbD 12 && tw.toNat / 8192 % 4 != 3 && !decide (
          (0x01C ≤ tw.toNat % 4096 ∧ tw.toNat % 4096 ≤ 0x01F) ∨ (0x044 ≤ tw.toNat % 4096 ∧ tw.toNat % 4096 ≤ 0x047) ∨
          (0x058 ≤ tw.toNat % 4096 ∧ tw.toNat % 4096 ≤ 0x7FF))) = true := by decide

/-- A misaligned word, a write to a read-only register, a width not allowed, and allowed words (after
`witness_DecodeFollowsTestOrder_mapped`, which says that they are mapped). -/
theorem witness_DecodeFollowsTestOrder_tests :
    (0x401B % 4096 % 2 ^ (0x401B / 8192 % 4) ≠ 0 ∧ 0xC002 % 4096 % 2 ^ (0xC002 / 8192 % 4) ≠ 0) ∧
    (0xC048 % 4096 % 2 ^ (0xC048 / 8192 % 4) = 0 ∧ 0x8000 ≤ 0xC048 ∧ 0x048 ≤ 0xC048 % 4096 ∧
      0xCFFC % 4096 % 2 ^ (0xCFFC / 8192 % 4) = 0 ∧ 0x8000 ≤ 0xCFFC ∧ 0x800 ≤ 0xCFFC % 4096) ∧
    (0x0000 / 8192 % 4 ≠ 2 ∧ ¬0x8000 ≤ 0x0000 ∧ ¬0x050 ≤ 0x0000 % 4096 ∧
      0x8010 / 8192 % 4 ≠ 2 ∧ 0x8010 % 4096 = 0x010) ∧
    (0x4000 / 8192 % 4 = 2 ∧ 0x8043 % 4096 = 0x043 ∧ 0x0057 % 4096 = 0x057 ∧ 0x4FFC / 8192 % 4 = 2) := by decide

theorem witness_IllegalIffNoRowSelected :
    (⟨0x401C, 0⟩ : Transaction).rsv = false ∧ decode ⟨0x401C, 0⟩ = .busError .unmapped ∧
    (∃ r ∈ rows, r.selects 0x8043 = true) ∧ (⟨0x8043, 0⟩ : Transaction).rsv = false := by decide

theorem witness_NotationAgreesWithEncoding : rows.length = 36 := by decide

theorem witness_IgnoredWriteBits :
    (0xFFFFFFFE : Word).getLsbD 0 = (0 : Word).getLsbD 0 ∧
    (0xFFFFFFFD : Word).extractLsb' 0 2 = (1 : Word).extractLsb' 0 2 ∧
    (0xFFFFFF61 : Word).extractLsb' 0 8 = (0x61 : Word).extractLsb' 0 8 ∧
    (0xFFFF6261 : Word).extractLsb' 0 16 = (0x6261 : Word).extractLsb' 0 16 := by decide

theorem witness_StepRunsDecodedOperation :
    (issued 0x8043 0x61 { ramSt with building := true }).pending = .transaction ⟨0x8043, 0x61⟩ :: [] ∧
    decode ⟨0x8043, 0x61⟩ = .op (.wr8Data 3 0x61) := ⟨rfl, by decide⟩

theorem witness_BusErrorEffect :
    (issued 0xC800 0 st).pending = .transaction ⟨0xC800, 0⟩ :: [] ∧ decode ⟨0xC800, 0⟩ = .busError .readOnly ∧
    (issued 0x401C 0 errSt).pending = .transaction ⟨0x401C, 0⟩ :: [] ∧ decode ⟨0x401C, 0⟩ = .busError .unmapped := by
  decide

theorem witness_ReservedBitIsNoTransaction :
    (issued 0x5000 0 st).pending = .transaction ⟨0x5000, 0⟩ :: [] ∧ (0x5000 : Half).getLsbD 12 = true := by decide

theorem witness_ResetEventEffect :
    ({ errSt with pending := [.reset none, .transaction ⟨0x4000, 0⟩] } : State).pending =
      .reset none :: [.transaction ⟨0x4000, 0⟩] := rfl

theorem witness_IdleStepOnlyEndsBuild : ({ ramSt with building := true } : State).pending = [] := rfl

theorem witness_StateAfterReset :
    (2 : Word).getLsbD 1 = true ∧ ∃ ram, ramSt.resetBlock.hold.tableRam = some ram := ⟨by decide, _, rfl⟩

theorem witness_StepKeepsInvariant :
    (Inv ramSt ∧ ∃ t, step ramSt = .next t) ∧
    (∃ s, Inv s ∧ s.pending = [.transaction ⟨0xC020, 0⟩] ∧ ∃ t, step s = .next t) :=
  ⟨⟨inv_ramSt, _, rfl⟩, issued 0xC020 0 errSt,
    ⟨inv_errSt.1, inv_errSt.2, inv_errSt.3, inv_errSt.4, inv_errSt.5⟩, rfl, _, rfl⟩

theorem witness_StepKeepsRamPresence :
    ∃ s, RamFollowsImpl s ∧ ∃ t, step s = .next t := by
  refine ⟨issued 0xC020 0 State.reset, ?_, _, rfl⟩
  show (if Config.impl.hasRam then some (Config.ramWhileBuilding 0) else none).isSome = Config.impl.hasRam
  cases Config.impl.hasRam <;> rfl

theorem witness_CleanPort :
    PortClean (issued 0x8040 0x61 st) ∧ PortClean st ∧ PortClean { st with pending := [.reset none] } := by
  refine ⟨?_, ?_, ?_⟩ <;> intro t ht
  · have : t = ⟨0x8040, 0x61⟩ := by simpa [issued] using ht
    subst this
    decide
  · simp [st, State.reset] at ht
  · simp at ht

theorem witness_ErrorRecordIsSticky :
    errSt.err = true ∧
    (∃ t, step (issued 0xC00C 1 errSt) = .next t ∧ t.err ≠ errSt.err) ∧
    (∃ t, step (issued 0xC000 0 errSt) = .next t) ∧ TakesError (issued 0xC000 0 errSt) :=
  ⟨rfl, ⟨_, rfl, by decide⟩, ⟨_, rfl⟩, ⟨_, _, .readOnly, rfl, by decide⟩⟩

/-- Every clause of StateChangesOnlyAtItsWriters has a step in which the state changes. -/
theorem witness_StateChangesOnlyAtItsWriters :
    (stepped 0xC008 0 st).map (·.reflect) = some false ∧
    (stepped 0x401C 0 st).map (fun t => (t.err, t.cause, t.errinfo)) = some (true, 1, 0x401C) ∧
    (stepped 0x8040 0 st).map (·.bytecount) = some 1 ∧
    (stepped 0xC020 0 st).map (·.poly) = some 0xC96C579500000000 ∧
    (stepped 0xC028 5 st).map (·.seed) = some 5 ∧ (stepped 0xC030 5 st).map (·.xorout) = some 5 ∧
    (stepped 0xC038 5 st).map (·.acc) = some 5 ∧ (stepped 0xC020 0 ramSt).map (·.building) = some true := by decide

theorem witness_ReadsChangeNoState :
    writes .rd32Id = false ∧ writes (.rd32Table 255 1) = false ∧ writes (.rd8Digest 7) = false := by decide

theorem witness_WritesFrame :
    writes (.wr32Ctrl 0) = true ∧ writes (.wr8Data 3 0) = true ∧ writes (.wr32Cmd 2) = true ∧
    ∀ v, Instr.wr8Data 3 0 ≠ .wr32Cmd v := by
  refine ⟨by decide, by decide, by decide, ?_⟩
  intro v h
  cases h

theorem witness_ControlWrite :
    (1 : Word).getLsbD 0 = st.reflect ∧ (0xFFFFFFFE : Word).getLsbD 0 ≠ st.reflect := by decide

theorem witness_StatusWriteOneToClear : (1 : Word).getLsbD 0 = true ∧ (0xF0 : Word).getLsbD 0 = false := by decide

theorem witness_CommandWrite :
    ((0xFFFFFFFC : Word).getLsbD 1 = false ∧ (0xFFFFFFFC : Word).getLsbD 0 = false) ∧
    ((1 : Word).getLsbD 1 = false ∧ (1 : Word).getLsbD 0 = true) ∧ (3 : Word).getLsbD 1 = true := by decide

theorem witness_PolyWrites :
    st.poly.extractLsb' 32 32 ++ (0xD7870F42 : Word) = st.poly ∧
    st.poly.extractLsb' 32 32 ++ (0 : Word) ≠ st.poly := by decide

theorem witness_TableReads :
    0x800 ≤ (0x800 : Offset).toNat ∧ (0x800 : Offset).toNat % 4 = 0 ∧ 0x800 ≤ (0xFFC : Offset).toNat ∧
    (0xFFC : Offset).toNat % 4 = 0 ∧ (0x801 : Offset).toNat % 4 ≠ 0 ∧ (0xFFF : Offset).toNat % 4 ≠ 0 := by decide

theorem witness_TableRamFollowsInputs :
    Inv ramSt ∧ (∃ t, exec (.wr32PolyLo 0) ramSt = .next t ∧ ∃ ram, t.hold.tableRam = some ram) ∧
    (∃ t, exec (.wr32Ctrl 1) ramSt = .next t ∧ t.poly = ramSt.poly ∧ t.reflect = ramSt.reflect) :=
  ⟨inv_ramSt, ⟨_, rfl, _, rfl⟩, ⟨_, rfl, rfl, rfl⟩⟩

theorem witness_TableRamIsNotObservable :
    (issued 0xC020 0 ramSt).tableRam.isSome = true ∧ ∃ t, step (issued 0xC020 0 ramSt) = .next t := ⟨rfl, _, rfl⟩

theorem witness_StrategyIsUnobservable : Inv ramSt ∧ ∃ ram, ramSt.hold.tableRam = some ram := ⟨inv_ramSt, _, rfl⟩

theorem witness_DigestReads :
    (0 : BitVec 3).toNat % 2 = 0 ∧ (6 : BitVec 3).toNat % 2 = 0 ∧ (4 : BitVec 3).toNat % 4 = 0 := by decide

theorem witness_DataWritesFoldTheMessage :
    (∀ i ∈ [Instr.wr8Data 3 0x61, .wr16Data 2 0x6261, .wr32Data 0], isDataWrite i = true) ∧
    ({ st with pending := issue [.wr8Data 3 0x61, .wr16Data 2 0x6261, .wr32Data 0] ++ [.reset none] } : State).pending =
      issue [.wr8Data 3 0x61, .wr16Data 2 0x6261, .wr32Data 0] ++ [.reset none] := ⟨by decide, rfl⟩

theorem witness_FeedCarriesTheMessage : feedBytes [0x61, 0x62, 0x63] = [.wr16Data 0 0x6261, .wr8Data 0 0x63] := by
  decide

theorem witness_BlockComputesCrc64 :
    ∃ s : State, s.reflect = true ∧ s.poly = 0xC96C5795D7870F42 ∧ s.seed = 0 ∧ s.xorout = 0 ∧
      s.pending = issue (Pseudo.init.expand ++ (Pseudo.feed [0x61]).expand) ++ [] :=
  ⟨{ st with pending := issue (Pseudo.init.expand ++ (Pseudo.feed [0x61]).expand) ++ [] }, rfl, rfl, rfl, rfl, rfl⟩

theorem witness_BytesFoldUnderTheConfigurationInForce (is : List Instr) :
    ({ st with pending := issue is ++ [] } : State).pending = issue is ++ [] := rfl

theorem witness_PseudoInstructionEffects (p : Pseudo) :
    ({ st with pending := issue p.expand ++ [] } : State).pending = issue p.expand ++ [] := rfl

/-- A DATA write of each width, a read and a bus error; BUILDING 1 and 0. -/
theorem witness_ResponseTimeIsBounded :
    decode ⟨0x8043, 0x61⟩ = .op (.wr8Data 3 0x61) ∧ decode ⟨0xA042, 0x6261⟩ = .op (.wr16Data 2 0x6261) ∧
    decode ⟨0xC040, 0⟩ = .op (.wr32Data 0) ∧ (∀ i, decode ⟨0x4040, 0⟩ = .op i → bytesFolded i = none) ∧
    (∀ i, decode ⟨0xA041, 0⟩ = .op i → bytesFolded i = none) ∧
    ({ ramSt with building := true } : State).building = true ∧ ramSt.building = false := by
  have h1 : decode ⟨0x4040, 0⟩ = .op .rd32Data := by decide
  have h2 : decode ⟨0xA041, 0⟩ = .busError .misaligned := by decide
  refine ⟨by decide, by decide, by decide, ?_, ?_, rfl, rfl⟩ <;> intro i h
  · rw [h1] at h
    cases h
    rfl
  · rw [h2] at h
    cases h

theorem witness_ZeroPrefixAndLinearity : [(0x61 : Byte)].length = [(0x62 : Byte)].length := rfl

end Sys2Proof.Tests
end

section
/-! # Proofs of the scope family (spec/00_scope.md)

What a port word's fields read back, the window map, the bit-serial and the RAM-reading fold, and the steps of two
states that differ only in the table RAM. -/

namespace Sys2Proof.Machine

/-! ### The fields of a port word (R80, R81) -/

/-- The port word of an access: direction, size code, RSV = 0, offset (R80). -/
def portWord (d : BitVec 1) (c : BitVec 2) (off : Offset) : Half := d ++ c ++ 0#1 ++ off

theorem busRead_eq_portWord (off : Offset) (n : Size) : busRead off n = ⟨portWord 0 n.code off, 0⟩ := rfl

theorem busWrite_eq_portWord (off : Offset) (n : Size) (v : Word) :
    busWrite off n v = ⟨portWord 1 n.code off, v⟩ := rfl

section
variable (d : BitVec 1) (c : BitVec 2) (off : Offset) (v : Word)

@[simp] theorem off_portWord : (⟨portWord d c off, v⟩ : Transaction).off = off :=
  BitVec.extractLsb'_append_eq_right

@[simp] theorem rsv_portWord : (⟨portWord d c off, v⟩ : Transaction).rsv = false := by
  rw [Transaction.rsv, portWord, BitVec.getLsbD_append, BitVec.getLsbD_append]
  simp

@[simp] theorem sz_portWord : (⟨portWord d c off, v⟩ : Transaction).sz = c := by
  rw [Transaction.sz, portWord, BitVec.extractLsb'_append_eq_of_le (by decide),
    BitVec.extractLsb'_append_eq_of_le (by decide)]
  exact BitVec.extractLsb'_append_eq_right

@[simp] theorem isWrite_portWord : (⟨portWord d c off, v⟩ : Transaction).isWrite = d.getLsbD 0 := by
  rw [Transaction.isWrite, portWord, BitVec.getLsbD_append, BitVec.getLsbD_append, BitVec.getLsbD_append]
  simp

end

@[simp] theorem ofCode_code (n : Size) : Size.ofCode n.code = some n := by cases n <;> rfl

/-! ### The window (R50, R66) -/

/-- An address reaches offset `off` exactly when it is `BASE + off`. -/
theorem windowOffset_eq_some_iff (addr : Nat) (off : Offset) :
    windowOffset addr = some off ↔ addr = Config.base + off.toNat := by
  have hwin : Config.win = 2 ^ 12 := rfl
  have hoff : off.toNat < 2 ^ 12 := off.isLt
  unfold windowOffset
  split
  · rw [Option.some.injEq, ← BitVec.toNat_inj, BitVec.toNat_ofNat, Nat.mod_eq_of_lt (by omega)]
    omega
  · simp only [reduceCtorEq, false_iff]
    omega

/-- BASE is a multiple of the window's size (R5). -/
theorem win_dvd_base : 4096 ∣ Config.base := ⟨Config.basePage, rfl⟩

/-- Settles O7: the fields of a port word read back, and the window map is the inverse of `BASE + off`. -/
theorem portCarriesAddressDirectionSize : Obligations.PortCarriesAddressDirectionSize := by
  refine ⟨fun off n => ?_, fun off n v => ?_, windowOffset_eq_some_iff, win_dvd_base⟩
  · simp [busRead_eq_portWord]
  · simp [busWrite_eq_portWord]

/-! ### A fold is eight single-bit steps (R113, R117) -/

/-- The accumulator without the byte a fold consumes: the low byte cleared in the reflected order, the high byte in
the MSB-first order. -/
def keptBits (r : Bool) (a : DWord) : DWord := if r then a >>> 8 <<< 8 else a <<< 8 >>> 8

theorem getLsbD_keptBits_true (a : DWord) (j : Nat) :
    (keptBits true a).getLsbD j = (decide (8 ≤ j) && a.getLsbD j) := by
  by_cases h : 8 ≤ j
  · have hj : 8 + (j - 8) = j := by omega
    simpa [keptBits, h, hj] using BitVec.lt_of_getLsbD
  · simp [keptBits, Nat.lt_of_not_le h]

theorem getLsbD_keptBits_false (a : DWord) (j : Nat) :
    (keptBits false a).getLsbD j = (decide (j < 56) && a.getLsbD j) := by
  by_cases h : j < 56
  · have hj : 8 + j < 64 ∧ j < 64 := by omega
    simp [keptBits, h, hj]
  · have hj : ¬ 8 + j < 64 := by omega
    simp [keptBits, h, hj]

/-- Entering a byte leaves the kept bits and puts the fold's table index in place of the consumed byte. -/
theorem xor_enterByte_eq (r : Bool) (a : DWord) (b : Byte) :
    a ^^^ enterByte r b = keptBits r a ^^^ enterByte r (foldIndex r a b) := by
  apply BitVec.eq_of_getLsbD_eq
  intro j hj
  rw [BitVec.getLsbD_xor, BitVec.getLsbD_xor]
  cases r with
  | true =>
    rw [getLsbD_keptBits_true]
    by_cases h : 8 ≤ j
    · simp [enterByte, h]
    · simp [enterByte, foldIndex, h, hj, Nat.lt_of_not_le h]
  | false =>
    rw [getLsbD_keptBits_false]
    by_cases h : j < 56
    · simp [enterByte, h]
    · have hbyte : j - 56 < 8 ∧ 56 + (j - 56) = j := by omega
      simp [enterByte, foldIndex, h, hj, hbyte]

/-- The consumed end is clear, so eight steps of the kept bits shift zeros out and XOR nothing in. -/
theorem shiftStep8_keptBits (P : DWord) (r : Bool) (a : DWord) : shiftStep8 P r (keptBits r a) = shiftByte r a := by
  cases r with
  | true =>
    have hlow : ∀ j < 8, (keptBits true a).getLsbD j = false := by
      intro j hj
      simp [getLsbD_keptBits_true, hj]
    rw [shiftStep8, shiftStep_iterate_reflected P 8 _ hlow]
    apply BitVec.eq_of_getLsbD_eq
    intro j _
    simp [shiftByte, getLsbD_keptBits_true]
  | false =>
    have hhigh : ∀ j < 8, (keptBits false a).getLsbD (63 - j) = false := by
      intro j hj
      have h56 : ¬ 63 - j < 56 := by omega
      simp [getLsbD_keptBits_false, h56]
    rw [shiftStep8, shiftStep_iterate_normal P 8 (by decide) _ hhigh]
    apply BitVec.eq_of_getLsbD_eq
    intro j hj
    have h56 : j - 8 < 56 := by omega
    simp [shiftByte, getLsbD_keptBits_false, h56]

/-- R117: the table fold of one byte is its bit-serial fold. -/
theorem fold_eq_foldSerial (P : DWord) (r : Bool) (a : DWord) (b : Byte) : fold P r a b = foldSerial P r a b :=
  calc fold P r a b
    _ = shiftByte r a ^^^ shiftStep8 P r (enterByte r (foldIndex r a b)) := rfl
    _ = shiftStep8 P r (keptBits r a ^^^ enterByte r (foldIndex r a b)) := by
      rw [shiftStep8_xor, shiftStep8_keptBits]
    _ = foldSerial P r a b := by rw [foldSerial, ← xor_enterByte_eq]

/-! ### A RAM that holds the table folds as the table does (R38) -/

/-- The RAM holds `TABLE(P, r)` (R38). -/
def HoldsTable (ram : Vector DWord 256) (P : DWord) (r : Bool) : Prop :=
  ∀ i : Fin 256, ram[i] = tableEntry P r (BitVec.ofNat 8 i.val)

theorem foldFromRam_eq_fold {ram : Vector DWord 256} {P : DWord} {r : Bool} (h : HoldsTable ram P r)
    (a : DWord) (b : Byte) : foldFromRam ram r a b = fold P r a b := by
  rw [foldFromRam, h, BitVec.val_toFin, BitVec.ofNat_toNat, BitVec.setWidth_eq, fold]

/-- After the hold, the RAM holds the table of the present POLY and CTRL.REFLECT: the builder has just written it, or
no build was running and the invariant says so. -/
theorem Inv.holdsTable_hold {s : State} (hs : Inv s) {ram : Vector DWord 256} (h : s.hold.tableRam = some ram) :
    HoldsTable ram s.poly s.reflect := by
  cases hb : s.building with
  | false => exact hs.ram_agrees hb ram (State.hold_tableRam_of_ready hb ▸ h)
  | true =>
    rw [State.hold_tableRam_of_building hb] at h
    obtain ⟨_, _, rfl⟩ := Option.map_eq_some_iff.mp h
    exact fullTable_getElem s.poly s.reflect

/-- Settles O39: byte by byte, both datapaths fold as the model does. -/
theorem strategyIsUnobservable : Obligations.StrategyIsUnobservable := by
  intro s m hs
  refine ⟨fun ram hram => ?_, ?_⟩
  · rw [foldMessage, funext₂ (foldFromRam_eq_fold (hs.holdsTable_hold hram))]
  · rw [foldMessage, funext₂ (fold_eq_foldSerial s.poly s.reflect)]

/-! ### States that differ only in what the table RAM holds (R6, R41; log entry 8) -/

/-- `s'` is `s` but for the contents of the table RAM: both have one, or neither does. -/
def EqUpToRam (s s' : State) : Prop :=
  ∃ u : Option (Vector DWord 256), s' = { s with tableRam := u } ∧ u.isSome = s.tableRam.isSome

namespace EqUpToRam
variable {s s' : State} (h : EqUpToRam s s')
include h

/-- Taking an event off the port, and any other change of `pending`. -/
theorem withPending (p : List HostEvent) : EqUpToRam { s with pending := p } { s' with pending := p } := by
  obtain ⟨u, rfl, hu⟩ := h
  exact ⟨u, rfl, hu⟩

theorem respond (r : Response) : EqUpToRam (s.respond r) (s'.respond r) := by
  obtain ⟨u, rfl, hu⟩ := h
  exact ⟨u, rfl, hu⟩

theorem busError (c : BusCause) (t : Transaction) :
    EqUpToRam (Machine.busError c t s) (Machine.busError c t s') := by
  obtain ⟨u, rfl, hu⟩ := h
  exact ⟨u, rfl, hu⟩

theorem hold : EqUpToRam s.hold s'.hold := by
  obtain ⟨u, rfl, hu⟩ := h
  refine ⟨(State.hold { s with tableRam := u }).tableRam, rfl, by simp [hu]⟩

/-- A build looks only at whether there is a RAM. -/
theorem startBuild (changed : Bool) : EqUpToRam (s.startBuild changed) (s'.startBuild changed) := by
  obtain ⟨u, rfl, hu⟩ := h
  refine ⟨(State.startBuild changed { s with tableRam := u }).tableRam, ?_, by simp [hu]⟩
  simp [State.startBuild, hu]

theorem setPoly (P : DWord) : EqUpToRam (s.setPoly P) (s'.setPoly P) := by
  obtain ⟨u, rfl, hu⟩ := h
  exact startBuild (s := { s with poly := P }) ⟨u, rfl, hu⟩ (P != s.poly)

theorem setReflect (r : Bool) : EqUpToRam (s.setReflect r) (s'.setReflect r) := by
  obtain ⟨u, rfl, hu⟩ := h
  exact startBuild (s := { s with reflect := r }) ⟨u, rfl, hu⟩ (r != s.reflect)

theorem resetBlock : EqUpToRam s.resetBlock s'.resetBlock := by
  obtain ⟨u, rfl, hu⟩ := h
  refine ⟨(State.resetBlock { s with tableRam := u }).tableRam, ?_, by simp [hu]⟩
  simp [State.resetBlock, hu]

theorem initMessage : EqUpToRam s.initMessage s'.initMessage := by
  obtain ⟨u, rfl, hu⟩ := h
  exact ⟨u, rfl, hu⟩

theorem command (v : Word) : EqUpToRam (s.command v) (s'.command v) := by
  unfold State.command
  split
  · exact h.resetBlock
  · split
    · exact h.initMessage
    · exact h

theorem foldBytes (bs : List Byte) : EqUpToRam (s.foldBytes bs) (s'.foldBytes bs) := by
  obtain ⟨u, rfl, hu⟩ := h
  rw [State.foldBytes_eq, State.foldBytes_eq]
  exact ⟨u, rfl, hu⟩

/-- Every operation answers both states, with states equal up to the RAM again: the seven that build, reset or fold do
so by the lemmas above, and every other one leaves the RAM alone and looks at other fields only. -/
theorem exec {t : State} (i : Instr) (ht : Machine.exec i s = .next t) :
    ∃ t', Machine.exec i s' = .next t' ∧ EqUpToRam t t' := by
  have hss := h
  obtain ⟨u, rfl, hu⟩ := h
  cases i <;> cases ht
  case wr32Ctrl v => exact ⟨_, rfl, (hss.setReflect _).respond _⟩
  case wr32Cmd v => exact ⟨_, rfl, (hss.command _).respond _⟩
  case wr32PolyLo v => exact ⟨_, rfl, (hss.setPoly _).respond _⟩
  case wr32PolyHi v => exact ⟨_, rfl, (hss.setPoly _).respond _⟩
  case wr8Data lane v => exact ⟨_, rfl, (hss.foldBytes _).respond _⟩
  case wr16Data lane v => exact ⟨_, rfl, (hss.foldBytes _).respond _⟩
  case wr32Data v => exact ⟨_, rfl, (hss.foldBytes _).respond _⟩
  all_goals exact ⟨_, rfl, u, rfl, hu⟩

/-- Every step answers both states, with states equal up to the RAM again. -/
theorem step {t : State} (ht : Machine.step s = .next t) :
    ∃ t', Machine.step s' = .next t' ∧ EqUpToRam t t' := by
  have hp : s'.pending = s.pending := by
    obtain ⟨u, rfl, _⟩ := h
    rfl
  obtain ⟨hnil, rfl⟩ | ⟨a, rest, hcons, rfl⟩ | ⟨tr, rest, i, hcons, hd, he⟩ | ⟨tr, rest, c, hcons, hd, rfl⟩ :=
    step_cases ht
  · exact ⟨_, step_of_nil (hp.trans hnil), h.hold⟩
  · exact ⟨_, step_of_reset (hp.trans hcons), (h.withPending rest).resetBlock⟩
  · rw [step_of_op (hp.trans hcons) hd]
    exact (h.withPending rest).hold.exec i he
  · exact ⟨_, step_of_busError (hp.trans hcons) hd, (h.withPending rest).hold.busError c tr⟩

end EqUpToRam

/-- Settles O38: the two states are equal up to the RAM, and a step keeps that. -/
theorem tableRamIsNotObservable : Obligations.TableRamIsNotObservable := by
  intro s t ram hs ht
  have h : EqUpToRam s { s with tableRam := some ram } := ⟨some ram, rfl, hs.symm⟩
  obtain ⟨_, ht', u, rfl, hu⟩ := h.step ht
  exact ⟨u, ht', hu⟩

end Sys2Proof.Machine
end

section
/-! # Proofs of the state family (spec/10_state.md)

The effect of every operation as one relation (`Effect`), so that each proof about a step has one case per kind of
state change and not one per instruction; the reset values (R41); the invariant; the table RAM; the writers of each
state (R20). -/

namespace Sys2Proof.Machine

/-! ### Decoded operations are well formed (R85) -/

/-- A mask that keeps bit 0 makes a lane even where the pattern's bit 0 is 0; the index lemmas below go the same way. -/
theorem lane_of_selects_wr16Data {tw : Half} (h : tw &&& 0xFFFD = 0xA040) : (tw.extractLsb' 0 2).toNat % 2 = 0 := by
  have bit0 := congrArg (BitVec.getLsbD · 0) h
  have even : ∀ lane : BitVec 2, lane.getLsbD 0 = false → lane.toNat % 2 = 0 := by decide
  exact even _ (by simpa using bit0)

theorem index_of_selects_rd16Digest {tw : Half} (h : tw &&& 0xFFF9 = 0x2050) :
    (tw.extractLsb' 0 3).toNat % 2 = 0 := by
  have bit0 := congrArg (BitVec.getLsbD · 0) h
  have even : ∀ k : BitVec 3, k.getLsbD 0 = false → k.toNat % 2 = 0 := by decide
  exact even _ (by simpa using bit0)

theorem index_of_selects_rd32Digest {tw : Half} (h : tw &&& 0xFFFB = 0x4050) :
    (tw.extractLsb' 0 3).toNat % 4 = 0 := by
  have bit0 := congrArg (BitVec.getLsbD · 0) h
  have bit1 := congrArg (BitVec.getLsbD · 1) h
  have aligned : ∀ k : BitVec 3, k.getLsbD 0 = false → k.getLsbD 1 = false → k.toNat % 4 = 0 := by decide
  exact aligned _ (by simpa using bit0) (by simpa using bit1)

/-- The operation a selected row reads is well formed: three rows fix an alignment, the others take every operand. -/
theorem wf_of_selects : ∀ r ∈ rows, ∀ t : Transaction, r.selects t.tw = true → (r.instr t).wf = true := by
  simp only [rows, rowsControl, rowsConfiguration, rowsDatapath, List.cons_append, List.nil_append,
    List.forall_mem_cons, List.not_mem_nil, false_implies, Row.selects, Instr.wf, Transaction.lane,
    Transaction.digestIndex, beq_iff_eq, implies_true, true_and, and_true]
  exact ⟨fun _ => lane_of_selects_wr16Data, fun _ => index_of_selects_rd16Digest,
    fun _ => index_of_selects_rd32Digest⟩

theorem decode_op_wf {t : Transaction} {i : Instr} (h : decode t = .op i) : i.wf = true := by
  obtain ⟨_, hsel⟩ := decode_op_selects h
  obtain ⟨r, hr, rfl⟩ := Option.map_eq_some_iff.mp hsel
  exact wf_of_selects r (List.mem_of_find?_eq_some hr) t (by simpa using List.find?_some hr)

/-! ### The effect of an operation -/

/-- What an operation can do to the state before its response: each kind of change with the operations that make it.
It bounds the operations and does not define them: any may leave the state unchanged (a read does, and a STATUS or CMD
write with no bit set), and the value a write of half a register leaves is free here. -/
inductive Effect (s : State) : Instr → State → Prop
  | unchanged (i : Instr) : Effect s i s
  | setReflect (v : Word) : Effect s (.wr32Ctrl v) (s.setReflect (v.getLsbD 0))
  | clearError {v : Word} (h : v.getLsbD 0 = true) : Effect s (.wr32Status v) { s with err := false, cause := 0 }
  | softReset {v : Word} (h : v.getLsbD 1 = true) : Effect s (.wr32Cmd v) s.resetBlock
  | initMessage {v : Word} (h : v.getLsbD 0 = true) : Effect s (.wr32Cmd v) s.initMessage
  | setPoly {i : Instr} {v : Word} (h : i = .wr32PolyLo v ∨ i = .wr32PolyHi v) (P : DWord) :
      Effect s i (s.setPoly P)
  | setSeed {i : Instr} {v : Word} (h : i = .wr32SeedLo v ∨ i = .wr32SeedHi v) (x : DWord) :
      Effect s i { s with seed := x }
  | setXorout {i : Instr} {v : Word} (h : i = .wr32XoroutLo v ∨ i = .wr32XoroutHi v) (x : DWord) :
      Effect s i { s with xorout := x }
  | setAcc {i : Instr} {v : Word} (h : i = .wr32AccLo v ∨ i = .wr32AccHi v) (x : DWord) :
      Effect s i { s with acc := x }
  | foldData {i : Instr} {bs : List Byte} (h : bytesFolded i = some bs) : Effect s i (s.foldBytes bs)

theorem effect_clearStatus (v : Word) (s : State) : Effect s (.wr32Status v) (clearStatus v s) := by
  cases hv : v.getLsbD 0 with
  | true =>
    have h : clearStatus v s = { s with err := false, cause := 0 } := by
      simp only [clearStatus, hv, Bool.not_true, Bool.and_false, if_true]
    exact h ▸ .clearError hv
  | false =>
    have h : clearStatus v s = s := by
      simp only [clearStatus, hv, Bool.not_false, Bool.and_true, Bool.false_eq_true, if_false]
    exact h.symm ▸ .unchanged (.wr32Status v)

theorem effect_command (v : Word) (s : State) : Effect s (.wr32Cmd v) (s.command v) := by
  obtain ⟨h1, h⟩ | ⟨_, h0, h⟩ | ⟨_, _, h⟩ := State.command_cases v s
  · exact h ▸ .softReset h1
  · exact h ▸ .initMessage h0
  · exact h.symm ▸ .unchanged (.wr32Cmd v)

/-- Every operation has one of the effects, and then gives its response. -/
theorem exec_effect {i : Instr} {s t : State} (h : exec i s = .next t) :
    ∃ u d, Effect s i u ∧ t = u.respond ⟨.okay, d⟩ := by
  cases i <;> cases h
  case wr32Ctrl v => exact ⟨_, none, .setReflect v, rfl⟩
  case wr32Status v => exact ⟨_, none, effect_clearStatus v s, rfl⟩
  case wr32Cmd v => exact ⟨_, none, effect_command v s, rfl⟩
  case wr32PolyLo v => exact ⟨_, none, .setPoly (.inl rfl) _, rfl⟩
  case wr32PolyHi v => exact ⟨_, none, .setPoly (.inr rfl) _, rfl⟩
  case wr32SeedLo v => exact ⟨_, none, .setSeed (.inl rfl) _, rfl⟩
  case wr32SeedHi v => exact ⟨_, none, .setSeed (.inr rfl) _, rfl⟩
  case wr32XoroutLo v => exact ⟨_, none, .setXorout (.inl rfl) _, rfl⟩
  case wr32XoroutHi v => exact ⟨_, none, .setXorout (.inr rfl) _, rfl⟩
  case wr32AccLo v => exact ⟨_, none, .setAcc (.inl rfl) _, rfl⟩
  case wr32AccHi v => exact ⟨_, none, .setAcc (.inr rfl) _, rfl⟩
  case wr8Data lane v => exact ⟨_, none, .foldData rfl, rfl⟩
  case wr16Data lane v => exact ⟨_, none, .foldData rfl, rfl⟩
  case wr32Data v => exact ⟨_, none, .foldData rfl, rfl⟩
  all_goals exact ⟨s, _, .unchanged _, rfl⟩

/-! ### The invariant (R26, R29, R38, R39) -/

namespace Inv
variable {s : State} (hs : Inv s)
include hs

/-- The invariant reads neither the message registers nor the model's own fields. -/
theorem withUnread (bytecount : Word) (seed xorout acc : DWord) (draws : Nat) (pending : List HostEvent)
    (responses : List Response) :
    Inv { s with
      bytecount := bytecount, seed := seed, xorout := xorout, acc := acc
      ramDraws := draws, pending := pending, responses := responses } :=
  ⟨hs.cause_clear, hs.error_recorded, hs.errinfo_illegal, hs.building_has_ram, hs.ram_agrees⟩

theorem respond (r : Response) : Inv (s.respond r) := hs.withUnread ..

theorem foldBytes (bs : List Byte) : Inv (s.foldBytes bs) := by
  rw [State.foldBytes_eq]
  exact hs.withUnread ..

theorem hold : Inv s.hold where
  cause_clear := hs.cause_clear
  error_recorded := hs.error_recorded
  errinfo_illegal := hs.errinfo_illegal
  building_has_ram h := by simp at h
  ram_agrees _ _ h := hs.holdsTable_hold h

/-- New table inputs keep the invariant when the build starts unless both are as before: while it runs the RAM is
unconstrained, and without it the old table is still right. -/
theorem startBuild (P : DWord) (r changed : Bool) (h : changed = false → P = s.poly ∧ r = s.reflect) :
    Inv (({ s with poly := P, reflect := r } : State).startBuild changed) where
  cause_clear := hs.cause_clear
  error_recorded := hs.error_recorded
  errinfo_illegal := hs.errinfo_illegal
  building_has_ram hb := by
    rw [State.startBuild_isSome]
    rw [State.startBuild_building, Bool.or_eq_true, Bool.and_eq_true] at hb
    exact hb.elim hs.building_has_ram And.right
  ram_agrees hb ram hram := by
    cases changed with
    | false =>
      obtain ⟨rfl, rfl⟩ := h rfl
      exact hs.ram_agrees (by simpa using hb) ram hram
    | true =>
      obtain ⟨_, hnone⟩ : s.building = false ∧ s.tableRam = none := by simpa using hb
      simpa [hnone] using congrArg Option.isSome hram

theorem setPoly (P : DWord) : Inv (s.setPoly P) :=
  hs.startBuild P s.reflect _ fun h => ⟨by simpa using h, rfl⟩

theorem setReflect (r : Bool) : Inv (s.setReflect r) :=
  hs.startBuild s.poly r _ fun h => ⟨rfl, by simpa using h⟩

theorem clearError : Inv { s with err := false, cause := 0 } where
  cause_clear _ := rfl
  error_recorded h := by simp at h
  errinfo_illegal := hs.errinfo_illegal
  building_has_ram := hs.building_has_ram
  ram_agrees := hs.ram_agrees

/-- A word that is answered with an error is recorded with its own cause, unless the record is taken (R207). -/
theorem recordError {c : BusCause} {t : Transaction} (hd : decode t = .busError c) :
    Inv (recordError c t.tw s) where
  cause_clear h := by simp at h
  error_recorded _ := by
    cases herr : s.err with
    | true => simpa [herr] using hs.error_recorded herr
    | false => exact ⟨c, by simpa [herr] using (decode_busError_iff t 0 c).mp hd, by simp [herr]⟩
  errinfo_illegal := by
    cases herr : s.err with
    | true => simpa [herr] using hs.errinfo_illegal
    | false => exact ⟨c, by simpa [herr] using (decode_busError_iff t 0 c).mp hd⟩
  building_has_ram := hs.building_has_ram
  ram_agrees := hs.ram_agrees

end Inv

/-! ### The reset values (R41) -/

/-- The values reset gives the block's states (R41); a build runs exactly where there is a table RAM. -/
structure HasResetValues (s : State) : Prop where
  reflect : s.reflect = true
  err : s.err = false
  cause : s.cause = 0
  errinfo : s.errinfo = 0
  bytecount : s.bytecount = 0
  poly : s.poly = 0xC96C5795D7870F42
  seed : s.seed = 0
  xorout : s.xorout = 0
  acc : s.acc = 0
  building : s.building = s.tableRam.isSome

theorem hasResetValues_reset : HasResetValues State.reset :=
  ⟨rfl, rfl, rfl, rfl, rfl, rfl, rfl, rfl, rfl, by cases h : Config.impl.hasRam <;> simp [State.reset, h]⟩

theorem hasResetValues_resetBlock (s : State) : HasResetValues s.resetBlock :=
  ⟨rfl, rfl, rfl, rfl, rfl, rfl, rfl, rfl, rfl, by simp⟩

namespace HasResetValues
variable {s : State} (hs : HasResetValues s)
include hs

theorem respond (r : Response) : HasResetValues (s.respond r) :=
  ⟨hs.reflect, hs.err, hs.cause, hs.errinfo, hs.bytecount, hs.poly, hs.seed, hs.xorout, hs.acc, hs.building⟩

/-- Nothing is recorded, ERRINFO 0 is the narrow read of offset 0 (R169), and a RAM is being built. -/
theorem inv : Inv s where
  cause_clear _ := hs.cause
  error_recorded h := by simp [hs.err] at h
  errinfo_illegal := ⟨.badSize, by rw [hs.errinfo]; decide⟩
  building_has_ram h := hs.building ▸ h
  ram_agrees h ram hram := by simp [hs.building, hram] at h

theorem result : s.result = 0 := by simp [State.result, hs.acc, hs.xorout]

end HasResetValues

@[simp] theorem loHalf_zero : loHalf 0#64 = 0#32 := rfl

@[simp] theorem hiHalf_zero : hiHalf 0#64 = 0#32 := rfl

@[simp] theorem digestRead_b1_zero (k : BitVec 3) : digestRead .b1 0#64 k = 0#32 := by
  simp [digestRead, Size.bytes, packBytes, digestByte]

/-- A block comes out of reset with a table RAM exactly when IMPL = TABLE (R38). -/
theorem ramFollowsImpl_reset : RamFollowsImpl State.reset := by
  cases h : Config.impl.hasRam <;> simp [RamFollowsImpl, State.reset, h]

/-! ### The invariant over an operation and over a step -/

theorem Effect.inv {s u : State} {i : Instr} (h : Effect s i u) (hs : Inv s) : Inv u := by
  cases h with
  | unchanged => exact hs
  | setReflect v => exact hs.setReflect _
  | clearError => exact hs.clearError
  | softReset => exact (hasResetValues_resetBlock s).inv
  | initMessage => exact hs.withUnread ..
  | setPoly _ P => exact hs.setPoly P
  | setSeed => exact hs.withUnread ..
  | setXorout => exact hs.withUnread ..
  | setAcc => exact hs.withUnread ..
  | foldData => exact hs.foldBytes _

theorem Inv.exec {s t : State} {i : Instr} (hs : Inv s) (h : exec i s = .next t) : Inv t := by
  obtain ⟨u, d, hu, rfl⟩ := exec_effect h
  exact (hu.inv hs).respond _

/-- Settles O17: the hold, every effect of an operation, the record of an error and reset keep the invariant. -/
theorem stepKeepsInvariant : Obligations.StepKeepsInvariant := by
  intro s t hs h
  obtain ⟨_, rfl⟩ | ⟨a, rest, _, rfl⟩ | ⟨tr, rest, i, _, _, he⟩ | ⟨tr, rest, c, _, hd, rfl⟩ := step_cases h
  · exact hs.hold
  · exact (hasResetValues_resetBlock _).inv
  · exact Inv.exec (Inv.hold (hs.withUnread ..)) he
  · exact ((Inv.hold (hs.withUnread ..)).recordError hd).respond _

/-! ### The presence of the table RAM (R38) -/

theorem Effect.ram_isSome {s u : State} {i : Instr} (h : Effect s i u) :
    u.tableRam.isSome = s.tableRam.isSome := by
  cases h with
  | setReflect v => exact State.setReflect_isSome _ s
  | softReset => exact State.resetBlock_isSome s
  | setPoly _ P => exact State.setPoly_isSome P s
  | foldData => rw [State.foldBytes_eq]
  | _ => rfl

theorem step_ram_isSome {s t : State} (h : step s = .next t) : t.tableRam.isSome = s.tableRam.isSome := by
  obtain ⟨_, rfl⟩ | ⟨a, rest, _, rfl⟩ | ⟨tr, rest, i, _, _, he⟩ | ⟨tr, rest, c, _, _, rfl⟩ := step_cases h
  · exact State.hold_isSome s
  · exact State.resetBlock_isSome _
  · obtain ⟨u, d, hu, rfl⟩ := exec_effect he
    exact hu.ram_isSome.trans (State.hold_isSome _)
  · exact State.hold_isSome _

/-- Settles O18: no step gives or takes the RAM. -/
theorem stepKeepsRamPresence : Obligations.StepKeepsRamPresence := fun _ _ hs h => (step_ram_isSome h).trans hs

/-! ### The table RAM follows its inputs (R38, R115) -/

/-- Only a change of POLY or CTRL.REFLECT, or a soft reset, starts a build (log entry 7). -/
theorem Effect.ram_of_same_inputs {s u : State} {i : Instr} (h : Effect s i u) (hP : u.poly = s.poly)
    (hr : u.reflect = s.reflect) (hi : ∀ v, i ≠ .wr32Cmd v) :
    u.tableRam = s.tableRam ∧ u.building = s.building := by
  cases h with
  | setReflect v =>
    rw [State.setReflect_reflect] at hr
    rw [hr]
    exact ⟨s.setReflect_tableRam_of_same, by simp⟩
  | setPoly _ P =>
    rw [State.setPoly_poly] at hP
    rw [hP]
    exact ⟨s.setPoly_tableRam_of_same, by simp⟩
  | softReset => exact absurd rfl (hi _)
  | foldData => simp [State.foldBytes_eq]
  | _ => exact ⟨rfl, rfl⟩

/-- Settles O37: the operation keeps the invariant, which gives the RAM after the hold; unchanged inputs start no
build. -/
theorem tableRamFollowsInputs : Obligations.TableRamFollowsInputs := by
  intro s t i hs h
  refine ⟨fun ram hram => (hs.exec h).holdsTable_hold hram, fun hP hr hi => ?_⟩
  obtain ⟨u, d, hu, rfl⟩ := exec_effect h
  exact hu.ram_of_same_inputs hP hr hi

/-! ### The writers of each state (R20) -/

/-- Settles O22: each kind of step names the one writer it is; a state it does not write is as before. -/
theorem stateChangesOnlyAtItsWriters : Obligations.StateChangesOnlyAtItsWriters := by
  intro s t h srst init data polyWrite ctrlWrite
  obtain ⟨_, rfl⟩ | ⟨a, rest, hp, rfl⟩ | ⟨tr, rest, i, hp, hd, he⟩ | ⟨tr, rest, c, hp, hd, rfl⟩ := step_cases h
  · simp
  · have hw : srst := .inr ⟨a, rest, hp⟩
    simp [hw]
  · obtain ⟨u, d, hu, rfl⟩ := exec_effect he
    have takes : Takes s i := ⟨tr, rest, hp, hd⟩
    cases hu with
    | unchanged => simp
    | setReflect v =>
      have hw : ctrlWrite := ⟨v, takes⟩
      simp [hw]
    | clearError hv =>
      have hw : ∃ v, v.getLsbD 0 = true ∧ Takes s (.wr32Status v) := ⟨_, hv, takes⟩
      simp [-BitVec.getLsbD_eq_getElem, hw]
    | softReset hv =>
      have hw : srst := .inl ⟨_, hv, takes⟩
      simp [hw]
    | initMessage hv =>
      have hw : init := ⟨_, hv, takes⟩
      simp [hw]
    | setPoly hi P =>
      have hw : polyWrite := ⟨_, hi.imp (· ▸ takes) (· ▸ takes)⟩
      simp [hw]
    | setSeed hi x =>
      have hw : ∃ v, Takes s (.wr32SeedLo v) ∨ Takes s (.wr32SeedHi v) := ⟨_, hi.imp (· ▸ takes) (· ▸ takes)⟩
      simp [hw]
    | setXorout hi x =>
      have hw : ∃ v, Takes s (.wr32XoroutLo v) ∨ Takes s (.wr32XoroutHi v) := ⟨_, hi.imp (· ▸ takes) (· ▸ takes)⟩
      simp [hw]
    | setAcc hi x =>
      have hw : ∃ v, Takes s (.wr32AccLo v) ∨ Takes s (.wr32AccHi v) := ⟨_, hi.imp (· ▸ takes) (· ▸ takes)⟩
      simp [hw]
    | foldData hi =>
      have hw : data := ⟨i, takes, by simp [isDataWrite, hi, decode_op_wf hd]⟩
      simp [hw, State.foldBytes_eq]
  · have hw : TakesError s := ⟨tr, rest, c, hp, hd⟩
    simp [hw, busError]

/-! ### The idle step and the state after reset -/

/-- Settles O14: an idle step is the hold, which writes only BUILDING and the RAM. -/
theorem idleStepOnlyEndsBuild : Obligations.IdleStepOnlyEndsBuild := fun _ h => step_of_nil h

/-- Settles O15: reset and SRST leave the reset values, and from these follow the table the builder writes and what
every read answers. -/
theorem stateAfterReset : Obligations.StateAfterReset := by
  unfold Obligations.StateAfterReset
  intro IsReset
  have isReset : ∀ t, HasResetValues t → IsReset t := by
    intro t ht
    refine ⟨ht.reflect, ht.err, ht.cause, ht.errinfo, ht.bytecount, ht.poly, ht.seed, ht.xorout, ht.acc, ht.building,
      fun ram hram => ?_, rfl, rfl, ?_, ?_, fun k => ?_, fun i => ?_⟩
    · rw [← ht.poly, ← ht.reflect]
      exact ht.inv.holdsTable_hold hram
    · simp [readOkay, ht.result]
    · simp [readOkay, ht.result]
    · simp [readOkay, ht.result]
    · simp [readOkay, ht.poly, ht.reflect]
  refine ⟨isReset _ hasResetValues_reset, ramFollowsImpl_reset, fun s v hv => ?_⟩
  refine ⟨_, exec_wr32Cmd v s, isReset _ ?_, by simp⟩
  rw [State.command_of_srst hv]
  exact (hasResetValues_resetBlock s).respond _

/-- Settles O16: the reset values meet the invariant, and nothing is pending. -/
theorem resetMeetsInvariant : Obligations.ResetMeetsInvariant :=
  ⟨hasResetValues_reset.inv, ramFollowsImpl_reset, by simp [PortClean, State.reset]⟩

end Sys2Proof.Machine
end

section
/-! # Proofs of the memory family (spec/20_memory.md)

A transaction with RSV = 0 is answered in every state, so a step from a clean port answers and leaves the port clean,
and a run of any length is safe (R60, R200); a read only adds its response (R58). -/

namespace Sys2Proof.Machine

/-! ### Reads (R58, R83) -/

/-- A read answers with a value and leaves the state; every other operation has bit 15 of its word set. -/
theorem exec_of_read {i : Instr} (h : writes i = false) (s : State) :
    ∃ v, exec i s = .next (s.respond ⟨.okay, some v⟩) := by
  cases i with
  | wr32Ctrl | wr32Status | wr32Cmd | wr32PolyLo | wr32PolyHi | wr32SeedLo | wr32SeedHi | wr32XoroutLo
  | wr32XoroutHi | wr32AccLo | wr32AccHi | wr8Data | wr16Data | wr32Data => simp [writes, Instr.word] at h
  | _ => exact ⟨_, rfl⟩

/-- Settles O23: a read is its response. -/
theorem readsChangeNoState : Obligations.ReadsChangeNoState := fun _ s h => exec_of_read h s

/-! ### One transaction (R60, R200) -/

theorem step_of_transaction {s : State} {tr : Transaction} {rest : List HostEvent}
    (h : s.pending = .transaction tr :: rest) :
    step s = runTransaction tr ({ s with pending := rest } : State).hold := by
  simp [step, h, runEvent]

/-- A transaction with RSV = 0 is an operation or a bus error, and both give one response. -/
theorem runTransaction_answers {tr : Transaction} (h : tr.rsv = false) (s : State) :
    ∃ t r, runTransaction tr s = .next t ∧ t.responses = s.responses ++ [r] ∧ t.pending = s.pending := by
  unfold runTransaction
  cases hd : decode tr with
  | op i =>
    obtain ⟨t, d, he, hresponses, hpending⟩ := exec_answers i s
    exact ⟨t, _, he, hresponses, hpending⟩
  | busError c => exact ⟨_, _, rfl, rfl, rfl⟩
  | notATransaction => exact absurd hd (decode_of_not_rsv h)

/-- Settles O10: the step of a decoded operation, with the hold written out. -/
theorem stepRunsDecodedOperation : Obligations.StepRunsDecodedOperation := fun _ _ _ _ hp hd => step_of_op hp hd

/-! ### Steps and runs from a clean port -/

/-- Taking the oldest event leaves a clean port clean. -/
theorem PortClean.of_pending_eq_tail {s t : State} (hs : PortClean s) (h : t.pending = s.pending.tail) :
    PortClean t := by
  intro tr htr
  rw [h] at htr
  exact hs tr (List.mem_of_mem_tail htr)

/-- Settles O19: an idle step ends a build, a reset gives no response, and a transaction of a clean port is answered. -/
theorem cleanPortStepsAndAnswers : Obligations.CleanPortStepsAndAnswers := by
  intro s hs
  cases hp : s.pending with
  | nil =>
    have htail : s.hold.pending = s.pending.tail := by simp [hp]
    exact ⟨_, step_of_nil hp, hs.of_pending_eq_tail htail, hp ▸ htail, rfl⟩
  | cons e rest =>
    have htail : rest = s.pending.tail := by simp [hp]
    cases e with
    | reset a => exact ⟨_, step_of_reset hp, hs.of_pending_eq_tail htail, rfl, rfl⟩
    | transaction tr =>
      have hrsv : tr.rsv = false := hs tr (by simp [hp])
      obtain ⟨t, r, ht, hresponses, hpending⟩ :=
        runTransaction_answers hrsv ({ s with pending := rest } : State).hold
      have htail' : t.pending = s.pending.tail := hpending.trans htail
      exact ⟨t, (step_of_transaction hp).trans ht, hs.of_pending_eq_tail htail', hpending, r, hresponses⟩

/-- Settles O20, by induction on the length: each step answers a state whose port is clean again. -/
theorem cleanPortRunIsSafe : Obligations.CleanPortRunIsSafe := by
  intro k
  induction k with
  | zero => exact fun s _ => ⟨s, run_zero s⟩
  | succ k ih =>
    intro s hs
    obtain ⟨t, hstep, hclean, _⟩ := cleanPortStepsAndAnswers s hs
    obtain ⟨u, hrun⟩ := ih t hclean
    exact ⟨u, (run_succ_of_next hstep k).trans hrun⟩

end Sys2Proof.Machine
end

section
/-! # Proofs of the encoding family (spec/30_encoding.md)

The fields of a word as numbers; the register an offset lies in; the rows, disjoint by their patterns and masks; each
of R84's tests as one lemma; the word of an operation and the operation of a word; the assembly lines; the pseudo-instructions. -/

namespace Sys2Proof

open Machine

/-! ### The fields of a word as numbers (R80) -/

section
variable (t : Transaction)

theorem Transaction.off_toNat : t.off.toNat = t.tw.toNat % 4096 := by
  simp [Transaction.off, BitVec.extractLsb'_toNat]

theorem Transaction.sz_toNat : t.sz.toNat = t.tw.toNat / 8192 % 4 := by
  simp [Transaction.sz, BitVec.extractLsb'_toNat, Nat.shiftRight_eq_div_pow]

theorem Transaction.isWrite_eq_decide : t.isWrite = decide (0x8000 ≤ t.tw.toNat) := by
  rw [Transaction.isWrite, ← BitVec.msb_eq_decide t.tw]
  exact (BitVec.msb_eq_getLsbD_last t.tw).symm

theorem Transaction.rsv_eq_decide : t.rsv = decide (t.tw.toNat / 4096 % 2 = 1) := by
  rw [Transaction.rsv, BitVec.getLsbD, Nat.testBit_eq_decide_div_mod_eq]

end

theorem portWord_toNat (d : BitVec 1) (c : BitVec 2) (off : Offset) :
    (portWord d c off).toNat = d.toNat * 0x8000 + c.toNat * 0x2000 + off.toNat := by
  have hc := c.isLt
  have hoff := off.isLt
  simp only [portWord, BitVec.toNat_append]
  rw [← Nat.shiftLeft_add_eq_or_of_lt hoff, ← Nat.shiftLeft_add_eq_or_of_lt (by decide),
    ← Nat.shiftLeft_add_eq_or_of_lt hc]
  simp only [Nat.shiftLeft_eq, BitVec.toNat_ofNat]
  omega

/-- A word with RSV = 0 is the port word of its fields. -/
theorem tw_eq_portWord {t : Transaction} (h : t.rsv = false) :
    t.tw = portWord (BitVec.ofBool t.isWrite) t.sz t.off := by
  have hlt := t.tw.isLt
  have hrsv : ¬ t.tw.toNat / 4096 % 2 = 1 := by simpa [Transaction.rsv_eq_decide] using h
  rw [← BitVec.toNat_inj, portWord_toNat, BitVec.toNat_ofBool, Transaction.isWrite_eq_decide,
    Transaction.sz_toNat, Transaction.off_toNat]
  by_cases hw : 0x8000 ≤ t.tw.toNat
  · rw [decide_eq_true hw, Bool.toNat_true]
    omega
  · rw [decide_eq_false hw, Bool.toNat_false]
    omega

/-! ### The size codes (R81) -/

theorem ofCode_three {c : BitVec 2} (h : c.toNat = 3) : Size.ofCode c = none := by
  obtain rfl : c = 3 := BitVec.eq_of_toNat_eq h
  rfl

theorem exists_ofCode {c : BitVec 2} (h : c.toNat ≠ 3) : ∃ n, Size.ofCode c = some n := by
  have hcodes : ∀ c : BitVec 2, c.toNat ≠ 3 → c = 0 ∨ c = 1 ∨ c = 2 := by decide
  obtain rfl | rfl | rfl := hcodes c h
  · exact ⟨.b1, rfl⟩
  · exact ⟨.b2, rfl⟩
  · exact ⟨.b4, rfl⟩

theorem code_of_ofCode {c : BitVec 2} {n : Size} (h : Size.ofCode c = some n) : n.code = c := by
  revert c
  cases n <;> decide

theorem Size.code_injective {m n : Size} (h : m.code = n.code) : m = n := by
  rw [← Option.some_inj, ← ofCode_code m, ← ofCode_code n, h]

theorem Size.bytes_eq (n : Size) : n.bytes = 2 ^ n.code.toNat := by cases n <;> rfl

/-! ### The register of an offset (R56, R57) -/

/-- The bytes a register fills in the window (R56). -/
def Reg.extent : Reg → Nat
  | .digest => 8
  | .table => 2048
  | _ => 4

theorem and_wordMask_toNat (off : Offset) : (off &&& 0xFFC).toNat = off.toNat / 4 * 4 := by
  have h : off &&& (0xFFC : Offset) = off >>> 2 <<< 2 := by
    apply BitVec.eq_of_getLsbD_eq
    intro j hj
    interval_cases j <;> simp
  have hlt := off.isLt
  rw [h, BitVec.toNat_shiftLeft, BitVec.toNat_ushiftRight, Nat.shiftLeft_eq, Nat.shiftRight_eq_div_pow]
  omega

/-- Below the TABLE window the register is that of the 32-bit word around the offset. -/
theorem regAt_of_word {off w : Offset} (hoff : off.toNat < 0x800) (h : off.toNat / 4 * 4 = w.toNat) :
    regAt off = regAt w := by
  have hand : off &&& 0xFFC = w &&& 0xFFC := by
    rw [← BitVec.toNat_inj, and_wordMask_toNat, and_wordMask_toNat]
    omega
  have hw : ¬ 0x800 ≤ w.toNat := by omega
  simp only [regAt, hand, if_neg hw, if_neg (Nat.not_le.mpr hoff)]

/-- Every listed word lies whole in its register. -/
theorem regMap_in_range : ∀ e ∈ regMap,
    e.2.offset.toNat ≤ e.1.toNat ∧ e.1.toNat + 4 ≤ e.2.offset.toNat + e.2.extent := by
  decide

theorem regAt_range {off : Offset} {r : Reg} (h : regAt off = some r) :
    r.offset.toNat ≤ off.toNat ∧ off.toNat < r.offset.toNat + r.extent := by
  unfold regAt at h
  split at h
  · cases h
    exact ⟨‹_›, off.isLt⟩
  · obtain ⟨e, he, rfl⟩ := Option.map_eq_some_iff.mp h
    have hkey : e.1 = off &&& 0xFFC := by simpa using List.find?_some he
    have hrange := regMap_in_range e (List.mem_of_find?_eq_some he)
    rw [hkey, and_wordMask_toNat] at hrange
    omega

/-- Of the first 22 words only 0x01C and 0x044 are reserved. -/
theorem regAt_isSome_of_listed : ∀ k : Fin 22, k.val ≠ 7 → k.val ≠ 17 →
    (regAt (BitVec.ofNat 12 (4 * k.val))).isSome = true := by
  decide

/-- The offset lies in a reserved word: the ranges R201 names. -/
def IsReserved (off : Nat) : Prop :=
  (0x01C ≤ off ∧ off ≤ 0x01F) ∨ (0x044 ≤ off ∧ off ≤ 0x047) ∨ (0x058 ≤ off ∧ off ≤ 0x7FF)

theorem regAt_of_isReserved {off : Offset} (h : IsReserved off.toNat) : regAt off = none := by
  unfold IsReserved at h
  rw [Option.eq_none_iff_forall_ne_some]
  intro r hr
  obtain ⟨hlo, hhi⟩ := regAt_range hr
  cases r <;> simp [Reg.offset, Reg.extent] at hlo hhi <;> omega

theorem exists_regAt {off : Offset} (h : ¬ IsReserved off.toNat) : ∃ r, regAt off = some r := by
  unfold IsReserved at h
  by_cases htable : 0x800 ≤ off.toNat
  · exact ⟨.table, if_pos htable⟩
  · have hword : off.toNat / 4 * 4 = (BitVec.ofNat 12 (4 * (off.toNat / 4))).toNat := by
      rw [BitVec.toNat_ofNat]
      omega
    rw [regAt_of_word (Nat.not_le.mp htable) hword]
    have h7 : off.toNat / 4 ≠ 7 := by omega
    have h17 : off.toNat / 4 ≠ 17 := by omega
    exact Option.isSome_iff_exists.mp (regAt_isSome_of_listed ⟨off.toNat / 4, by omega⟩ h7 h17)

/-- R84's list of read-only registers as ranges, register by register. -/
theorem readOnly_iff {off : Offset} {r : Reg} (h : regAt off = some r) : r.readOnly = true ↔
    (off.toNat ≤ 0x007 ∨ (0x014 ≤ off.toNat ∧ off.toNat ≤ 0x01B) ∨ (0x048 ≤ off.toNat ∧ off.toNat ≤ 0x057) ∨
      0x800 ≤ off.toNat) := by
  obtain ⟨hlo, hhi⟩ := regAt_range h
  cases r <;> simp [Reg.offset, Reg.extent] at hlo hhi <;> simp [Reg.readOnly] <;> omega

theorem eq_data_iff {off : Offset} {r : Reg} (h : regAt off = some r) :
    r = .data ↔ 0x040 ≤ off.toNat ∧ off.toNat ≤ 0x043 := by
  refine ⟨?_, fun hr => ?_⟩
  · rintro rfl
    exact (regAt_range h).imp_right Nat.le_of_lt_succ
  · have hdata : regAt off = some .data :=
      regAt_of_word (w := 0x040#12) (by omega) (by rw [BitVec.toNat_ofNat]; omega)
    exact Option.some.inj (h.symm.trans hdata)

theorem eq_digest_iff {off : Offset} {r : Reg} (h : regAt off = some r) :
    r = .digest ↔ 0x050 ≤ off.toNat ∧ off.toNat ≤ 0x057 := by
  refine ⟨?_, fun hr => ?_⟩
  · rintro rfl
    exact (regAt_range h).imp_right Nat.le_of_lt_succ
  · have hdigest : regAt off = some .digest := by
      by_cases hlow : off.toNat < 0x054
      · exact regAt_of_word (w := 0x050#12) (by omega) (by rw [BitVec.toNat_ofNat]; omega)
      · exact regAt_of_word (w := 0x054#12) (by omega) (by rw [BitVec.toNat_ofNat]; omega)
    exact Option.some.inj (h.symm.trans hdigest)

/-! ### The rows (R85) -/

/-- Two rows disagree on a bit that both masks keep. -/
theorem rows_pairwise : rows.Pairwise fun r r' => r.pattern &&& r'.mask ≠ r'.pattern &&& r.mask := by decide

/-- Rows that one word selects agree on the bits both masks keep. -/
theorem Row.patterns_agree {r r' : Row} {tw : Half} (h : r.selects tw = true) (h' : r'.selects tw = true) :
    r.pattern &&& r'.mask = r'.pattern &&& r.mask := by
  rw [Row.selects, beq_iff_eq] at h h'
  rw [← h, ← h', BitVec.and_assoc, BitVec.and_assoc, BitVec.and_comm r.mask]

theorem rows_disjoint (j k : Fin rows.length) (tw : Half) (hj : rows[j].selects tw = true)
    (hk : rows[k].selects tw = true) : j = k := by
  have hpair := List.pairwise_iff_getElem.mp rows_pairwise
  rcases Nat.lt_trichotomy j k with hlt | heq | hgt
  · exact absurd (Row.patterns_agree hj hk) (hpair j k j.isLt k.isLt hlt)
  · exact Fin.ext heq
  · exact absurd (Row.patterns_agree hk hj) (hpair k j k.isLt j.isLt hgt)

/-- Settles O4: 36 rows, pairwise told apart by a bit that both masks keep. -/
theorem rowsAreDisjoint : Obligations.RowsAreDisjoint := ⟨rfl, rows_disjoint⟩

/-- The row a word selects is the one the decoder finds. -/
theorem selectRow_of_selects {t : Transaction} {r : Row} (hr : r ∈ rows) (h : r.selects t.tw = true) :
    selectRow t = some (r.instr t) := by
  have hfound : (rows.find? (·.selects t.tw)).isSome = true := List.find?_isSome.mpr ⟨r, hr, h⟩
  obtain ⟨r', hfind⟩ := Option.isSome_iff_exists.mp hfound
  have h' : r'.selects t.tw = true := List.find?_some (p := fun r : Row => r.selects t.tw) hfind
  obtain ⟨j, hj, rfl⟩ := List.getElem_of_mem hr
  obtain ⟨k, hk, rfl⟩ := List.getElem_of_mem (List.mem_of_find?_eq_some hfind)
  have hjk := rows_disjoint ⟨k, hk⟩ ⟨j, hj⟩ t.tw h' h
  obtain rfl : k = j := congrArg Fin.val hjk
  exact congrArg (Option.map _) hfind

theorem exists_row_of_selectRow {t : Transaction} {i : Instr} (h : selectRow t = some i) :
    ∃ r ∈ rows, r.selects t.tw = true ∧ r.instr t = i := by
  obtain ⟨r, hfind, rfl⟩ := Option.map_eq_some_iff.mp h
  exact ⟨r, List.mem_of_find?_eq_some hfind, List.find?_some (p := fun r : Row => r.selects t.tw) hfind, rfl⟩

/-! ### A selected row's operation is spelled by the word (R86) -/

/-- A word is the pattern its mask keeps and its other bits. -/
theorem pattern_or_rest {tw mask pattern rest : Half} (h : tw &&& mask = pattern)
    (hrest : mask ||| rest = BitVec.allOnes 16) : pattern ||| (tw &&& rest) = tw := by
  rw [← h, ← BitVec.and_or_distrib_left, hrest, BitVec.and_allOnes]

theorem lane_setWidth (tw : Half) : (tw.extractLsb' 0 2).setWidth 16 = tw &&& 0x3 := by
  apply BitVec.eq_of_getLsbD_eq
  intro j hj
  interval_cases j <;> simp

theorem digestIndex_setWidth (tw : Half) : (tw.extractLsb' 0 3).setWidth 16 = tw &&& 0x7 := by
  apply BitVec.eq_of_getLsbD_eq
  intro j hj
  interval_cases j <;> simp

theorem tableOperands_setWidth (tw : Half) :
    (tw.extractLsb' 3 8).setWidth 16 <<< 3 ||| (tw.extractLsb' 2 1).setWidth 16 <<< 2 = tw &&& 0x7FC := by
  apply BitVec.eq_of_getLsbD_eq
  intro j hj
  interval_cases j <;> simp

/-- A row that fixes the whole word has its pattern as the word; in the six others the operand covers the bits the mask
drops. -/
theorem word_of_selects : ∀ r ∈ rows, ∀ t : Transaction, r.selects t.tw = true → (r.instr t).word = t.tw := by
  have fixed : ∀ pattern : Half, (∀ t : Transaction, t.tw &&& 0xFFFF = pattern → pattern = t.tw) ↔ True :=
    fun _ => iff_true_intro fun _ h => h.symm.trans BitVec.and_allOnes
  simp only [rows, rowsControl, rowsConfiguration, rowsDatapath, List.cons_append, List.nil_append,
    List.forall_mem_cons, List.not_mem_nil, false_implies, Row.selects, Instr.word, Transaction.lane,
    Transaction.digestIndex, Transaction.tableIndex, Transaction.tableHalf, beq_iff_eq, implies_true, and_true,
    true_and, BitVec.or_assoc, lane_setWidth, digestIndex_setWidth, tableOperands_setWidth, fixed]
  refine ⟨?_, ?_, ?_, ?_, ?_, ?_⟩ <;> exact fun _ h => pattern_or_rest h (by decide)

theorem word_of_decode {t : Transaction} {i : Instr} (h : decode t = .op i) : i.word = t.tw := by
  obtain ⟨r, hr, hsel, rfl⟩ := exists_row_of_selectRow (decode_op_selects h).2
  exact word_of_selects r hr t hsel

/-! ### The decoder's tests, one by one (R84) -/

theorem decode_of_badSz64 {t : Transaction} (hrsv : t.rsv = false) (hsz : Size.ofCode t.sz = none) :
    decode t = .busError .badSz64 := by
  simp [decode, hrsv, hsz]

theorem decode_of_unmapped {t : Transaction} {n : Size} (hrsv : t.rsv = false) (hsz : Size.ofCode t.sz = some n)
    (hreg : regAt t.off = none) : decode t = .busError .unmapped := by
  simp [decode, hrsv, hsz, hreg]

/-- A transaction with RSV = 0 that passes R84's first two tests: an access of `n` bytes to register `r`. -/
structure Access (t : Transaction) (n : Size) (r : Reg) : Prop where
  rsv : t.rsv = false
  size : Size.ofCode t.sz = some n
  reg : regAt t.off = some r

namespace Access
variable {t : Transaction} {n : Size} {r : Reg} (h : Access t n r)
include h

theorem decode_of_misaligned (halign : t.off.toNat % n.bytes ≠ 0) : decode t = .busError .misaligned := by
  simp [decode, h.rsv, h.size, h.reg, halign]

variable (halign : t.off.toNat % n.bytes = 0)
include halign

theorem decode_of_readOnly (hro : (t.isWrite && r.readOnly) = true) : decode t = .busError .readOnly := by
  simp [decode, h.rsv, h.size, h.reg, halign, hro]

variable (hro : (t.isWrite && r.readOnly) = false)
include hro

theorem decode_of_badSize (hrow : selectRow t = none) : decode t = .busError .badSize := by
  simp [decode, h.rsv, h.size, h.reg, halign, hro, hrow]

theorem decode_of_row {i : Instr} (hrow : selectRow t = some i) : decode t = .op i := by
  simp [decode, h.rsv, h.size, h.reg, halign, hro, hrow]

end Access

/-! ### RD32.TABLE (R86) -/

/-- The offset of half `h` of table entry `i` (R86). -/
def tableOffset (i : BitVec 8) (h : BitVec 1) : Offset :=
  Reg.offset .table + ((i.setWidth 12 <<< 3) ||| (h.setWidth 12 <<< 2))

/-- The index field starts above the half bit, and both end below bit 11. -/
theorem tableFields_toNat {w : Nat} (hw : 12 ≤ w) (i : BitVec 8) (h : BitVec 1) :
    ((i.setWidth w <<< 3) ||| (h.setWidth w <<< 2)).toNat = 8 * i.toNat + 4 * h.toNat := by
  have hi := i.isLt
  have hh := h.isLt
  have hpow : 2 ^ 12 ≤ 2 ^ w := Nat.pow_le_pow_right (by decide) hw
  have hindex : (i.setWidth w <<< 3).toNat = i.toNat <<< 3 := by
    rw [BitVec.toNat_shiftLeft, BitVec.toNat_setWidth, Nat.mod_eq_of_lt (a := i.toNat) (by omega)]
    exact Nat.mod_eq_of_lt (by rw [Nat.shiftLeft_eq]; omega)
  have hhalf : (h.setWidth w <<< 2).toNat = 4 * h.toNat := by
    rw [BitVec.toNat_shiftLeft, BitVec.toNat_setWidth, Nat.mod_eq_of_lt (a := h.toNat) (by omega),
      Nat.shiftLeft_eq, Nat.mul_comm]
    exact Nat.mod_eq_of_lt (by omega)
  rw [BitVec.toNat_or, hindex, hhalf, ← Nat.shiftLeft_add_eq_or_of_lt (by omega), Nat.shiftLeft_eq, Nat.mul_comm]

theorem tableOffset_toNat (i : BitVec 8) (h : BitVec 1) :
    (tableOffset i h).toNat = 0x800 + (8 * i.toNat + 4 * h.toNat) := by
  have hi := i.isLt
  have hh := h.isLt
  have hbase : (Reg.offset .table).toNat = 0x800 := rfl
  rw [tableOffset, BitVec.toNat_add, tableFields_toNat (by decide), hbase, Nat.mod_eq_of_lt (by omega)]

theorem word_rd32Table (i : BitVec 8) (h : BitVec 1) :
    (Instr.rd32Table i h).word = portWord 0 Size.b4.code (tableOffset i h) := by
  have hi := i.isLt
  have hh := h.isLt
  have hpattern : ((0x4800 : Nat) : Half).toNat = 9 <<< 11 := rfl
  rw [← BitVec.toNat_inj, portWord_toNat, tableOffset_toNat, Instr.word, BitVec.or_assoc, BitVec.toNat_or,
    tableFields_toNat (by decide), hpattern, ← Nat.shiftLeft_add_eq_or_of_lt (by omega)]
  have hread : (0 : BitVec 1).toNat = 0 := rfl
  have hsize : Size.b4.code.toNat = 2 := rfl
  rw [hread, hsize, Nat.shiftLeft_eq]
  omega

/-- The row RD32.TABLE, the last of R85. -/
def rowTable : Row := ⟨"RD32.TABLE", 0x4800, 0xF803, fun t => .rd32Table t.tableIndex t.tableHalf⟩

theorem selects_rd32Table (i : BitVec 8) (h : BitVec 1) : rowTable.selects (Instr.rd32Table i h).word = true := by
  rw [Row.selects, beq_iff_eq]
  apply BitVec.eq_of_getLsbD_eq
  intro j hj
  interval_cases j <;> simp [Instr.word, rowTable]

theorem tableIndex_rd32Table (i : BitVec 8) (h : BitVec 1) (v : Word) :
    (⟨(Instr.rd32Table i h).word, v⟩ : Transaction).tableIndex = i := by
  apply BitVec.eq_of_getLsbD_eq
  intro j hj
  interval_cases j <;> simp [Instr.word, Transaction.tableIndex]

theorem tableHalf_rd32Table (i : BitVec 8) (h : BitVec 1) (v : Word) :
    (⟨(Instr.rd32Table i h).word, v⟩ : Transaction).tableHalf = h := by
  apply BitVec.eq_of_getLsbD_eq
  intro j hj
  interval_cases j
  simp [Instr.word, Transaction.tableHalf]

theorem selectRow_rd32Table (i : BitVec 8) (h : BitVec 1) (v : Word) :
    selectRow ⟨(Instr.rd32Table i h).word, v⟩ = some (.rd32Table i h) := by
  have hrow : rowTable ∈ rows := List.mem_of_getElem (i := 35) (h := by decide) rfl
  rw [selectRow_of_selects hrow (selects_rd32Table i h)]
  simp only [rowTable, tableIndex_rd32Table, tableHalf_rd32Table]

theorem access_rd32Table (i : BitVec 8) (h : BitVec 1) (v : Word) :
    Access ⟨(Instr.rd32Table i h).word, v⟩ .b4 .table := by
  have hoff := tableOffset_toNat i h
  rw [word_rd32Table]
  refine ⟨rsv_portWord .., ?_, ?_⟩
  · rw [sz_portWord, ofCode_code]
  · rw [off_portWord]
    exact if_pos (by omega)

theorem decode_rd32Table (i : BitVec 8) (h : BitVec 1) (v : Word) :
    decode ⟨(Instr.rd32Table i h).word, v⟩ = .op (.rd32Table i h) := by
  refine (access_rd32Table i h v).decode_of_row ?_ ?_ (selectRow_rd32Table i h v)
  · rw [word_rd32Table, off_portWord, tableOffset_toNat, Size.bytes]
    omega
  · rw [word_rd32Table, isWrite_portWord]
    rfl

/-! ### Decoding and encoding -/

theorem withData_writeData (i : Instr) : i.withData i.writeData = i := by cases i <;> rfl

theorem writeData_withData {i : Instr} (h : writes i = true) (v : Word) : (i.withData v).writeData = v := by
  cases i with
  | wr32Ctrl | wr32Status | wr32Cmd | wr32PolyLo | wr32PolyHi | wr32SeedLo | wr32SeedHi | wr32XoroutLo
  | wr32XoroutHi | wr32AccLo | wr32AccHi | wr8Data | wr16Data | wr32Data => rfl
  | rd8Digest k | rd16Digest k | rd32Digest k | rd32Table i h => simp [writes, Instr.word] at h
  | _ => cases h

theorem withData_withData (i : Instr) (u v : Word) : (i.withData u).withData v = i.withData v := by
  cases i <;> rfl

/-- The word of a well-formed operation decodes to it: the word fixes all but the narrow operands, which are few, and
the table operands. -/
theorem decode_word_zero {i : Instr} (h : i.wf = true) : decode ⟨i.word, 0⟩ = .op (i.withData 0) := by
  cases i with
  | wr8Data lane _ | wr16Data lane _ =>
    dsimp only [Instr.wf, Instr.word, Instr.withData] at h ⊢
    revert lane
    decide
  | rd8Digest k | rd16Digest k | rd32Digest k =>
    dsimp only [Instr.wf, Instr.word, Instr.withData] at h ⊢
    revert k
    decide
  | rd32Table index half => exact decode_rd32Table index half 0
  | _ =>
    dsimp only [Instr.word, Instr.withData]
    decide

theorem decode_word {i : Instr} (h : i.wf = true) (v : Word) : decode ⟨i.word, v⟩ = .op (i.withData v) := by
  rw [decode_op_withData (decode_word_zero h) v, withData_withData]

/-- Settles O2: the word decodes to the operation but for its write data, which the transaction carries. -/
theorem decodeOfEncode : Obligations.DecodeOfEncode := by
  intro i h
  rw [encode, decode_word h, withData_writeData]

theorem withData_of_decode {t : Transaction} {i : Instr} (h : decode t = .op i) : i.withData t.wdata = i := by
  have hdata : decode t = (decode t).withData t.wdata := decode_withData t.tw t.wdata t.wdata
  rw [h] at hdata
  exact (Decoded.op.inj hdata).symm

/-- Settles O3: the decoded operation is that of a selected row, whose word is the transaction's. -/
theorem encodeOfDecode : Obligations.EncodeOfDecode := by
  intro t i h
  have hword := word_of_decode h
  refine ⟨decode_op_wf h, hword, fun hw => ?_⟩
  have hwrites : writes i = true := by rw [writes, hword]; exact hw
  rw [← withData_of_decode h, writeData_withData hwrites]

/-- A selected row's operation is well formed and has the transaction's word, so it is what is decoded (R87). -/
theorem decode_of_selects {r : Row} (hr : r ∈ rows) {t : Transaction} (h : r.selects t.tw = true) :
    decode t = .op (r.instr t) := by
  have hword := word_of_selects r hr t h
  have hdata : r.instr t = (r.instr t).withData t.wdata := row_instr_withData r hr t.tw t.wdata t.wdata
  rw [hdata, ← decode_word (wf_of_selects r hr t h), hword]

/-- Settles O6: a selected row's operation is decoded, and what decodes to an operation selects a row. -/
theorem illegalIffNoRowSelected : Obligations.IllegalIffNoRowSelected := by
  intro t hrsv
  refine ⟨⟨?_, fun hnone => ?_⟩, fun r hr hsel => decode_of_selects hr hsel⟩
  · rintro ⟨c, hc⟩ r hr
    by_contra hsel
    have hop := decode_of_selects hr (Bool.not_eq_false _ ▸ hsel)
    rw [hc] at hop
    cases hop
  · cases hd : decode t with
    | op i =>
      obtain ⟨r, hr, hsel, _⟩ := exists_row_of_selectRow (decode_op_selects hd).2
      rw [hnone r hr] at hsel
      cases hsel
    | busError c => exact ⟨c, rfl⟩
    | notATransaction => exact absurd hd (decode_of_not_rsv hrsv)

/-! ### The widths a register allows (R55) -/

/-- An access of `n` bytes to register `r` is allowed: four bytes anywhere, fewer only where DATA is written or DIGEST
is read. -/
def AllowsWidth (isWrite : Bool) (r : Reg) (n : Size) : Prop :=
  n = .b4 ∨ (isWrite = true ∧ r = .data) ∨ (isWrite = false ∧ r = .digest)

/-- An operation's word is a 32-bit access, a write of DATA or a read of DIGEST. -/
theorem width_of_word (i : Instr) :
    (⟨i.word, 0⟩ : Transaction).sz = Size.b4.code ∨
    ((⟨i.word, 0⟩ : Transaction).isWrite = true ∧ regAt (⟨i.word, 0⟩ : Transaction).off = some .data) ∨
    ((⟨i.word, 0⟩ : Transaction).isWrite = false ∧ regAt (⟨i.word, 0⟩ : Transaction).off = some .digest) := by
  cases i with
  | wr8Data lane _ | wr16Data lane _ =>
    dsimp only [Instr.word]
    revert lane
    decide
  | rd8Digest k | rd16Digest k | rd32Digest k =>
    dsimp only [Instr.word]
    revert k
    decide
  | rd32Table i h => exact .inl (by rw [word_rd32Table, sz_portWord])
  | _ =>
    dsimp only [Instr.word]
    decide

/-! #### Every allowed access selects a row -/

theorem selectRow_isSome_wordAccess (w : Bool) {r : Reg} (htable : r ≠ .table) (hro : (w && r.readOnly) = false) :
    (selectRow ⟨portWord (BitVec.ofBool w) Size.b4.code r.offset, 0⟩).isSome = true := by
  cases r with
  | table => exact absurd rfl htable
  | _ =>
    revert w
    decide

theorem selectRow_isSome_dataWrite (n : Size) : ∀ lane : BitVec 2, lane.toNat % n.bytes = 0 →
    (selectRow ⟨portWord 1 n.code (Reg.offset .data + lane.setWidth 12), 0⟩).isSome = true := by
  cases n <;> decide

theorem selectRow_isSome_digestRead (n : Size) : ∀ k : BitVec 3, k.toNat % n.bytes = 0 →
    (selectRow ⟨portWord 0 n.code (Reg.offset .digest + k.setWidth 12), 0⟩).isSome = true := by
  cases n <;> decide

theorem selectRow_isSome_tableRead (i : BitVec 8) (h : BitVec 1) :
    (selectRow ⟨portWord 0 Size.b4.code (tableOffset i h), 0⟩).isSome = true := by
  rw [← word_rd32Table, selectRow_rd32Table]
  rfl

/-- An offset in a block of `2 ^ k` bytes is the block's offset and a `k`-bit index. -/
theorem exists_offset_add {off base : Offset} {k : Nat} (hlo : base.toNat ≤ off.toNat)
    (hhi : off.toNat < base.toNat + 2 ^ k) (_ : k ≤ 12) :
    ∃ x : BitVec k, off = base + x.setWidth 12 ∧ x.toNat = off.toNat - base.toNat := by
  have hlt := off.isLt
  have hx : (BitVec.ofNat k (off.toNat - base.toNat)).toNat = off.toNat - base.toNat := by
    rw [BitVec.toNat_ofNat, Nat.mod_eq_of_lt (by omega)]
  refine ⟨BitVec.ofNat k (off.toNat - base.toNat), ?_, hx⟩
  rw [← BitVec.toNat_inj, BitVec.toNat_add, BitVec.toNat_setWidth, hx]
  omega

theorem exists_tableOffset {off : Offset} (hlo : 0x800 ≤ off.toNat) (halign : off.toNat % 4 = 0) :
    ∃ i h, off = tableOffset i h := by
  have hlt := off.isLt
  refine ⟨BitVec.ofNat 8 ((off.toNat - 0x800) / 8), BitVec.ofNat 1 (off.toNat / 4), ?_⟩
  rw [← BitVec.toNat_inj, tableOffset_toNat, BitVec.toNat_ofNat, BitVec.toNat_ofNat]
  omega

theorem selectRow_isSome_of_tw {t : Transaction} {tw : Half} (ht : t.tw = tw)
    (h : (selectRow ⟨tw, 0⟩).isSome = true) : (selectRow t).isSome = true := by
  subst ht
  have hdata : selectRow t = (selectRow ⟨t.tw, 0⟩).map (Instr.withData t.wdata) := selectRow_withData t.tw 0 t.wdata
  rw [hdata, Option.isSome_map, h]

theorem offset_mod_four (r : Reg) : r.offset.toNat % 4 = 0 := by cases r <;> rfl

/-- A register that fills one word has one offset that is a multiple of 4. -/
theorem offset_eq_of_aligned {off : Offset} {r : Reg} (hreg : regAt off = some r) (hdigest : r ≠ .digest)
    (htable : r ≠ .table) (halign : off.toNat % 4 = 0) : off = r.offset := by
  obtain ⟨hlo, hhi⟩ := regAt_range hreg
  have hextent : r.extent = 4 := by
    cases r with
    | digest | table => contradiction
    | _ => rfl
  have hoffset := offset_mod_four r
  rw [← BitVec.toNat_inj]
  omega

theorem offset_mod_bytes (r : Reg) (n : Size) : r.offset.toNat % n.bytes = 0 := by
  have hword := offset_mod_four r
  cases n with
  | b1 => exact Nat.mod_one _
  | b2 => exact (Nat.mod_mod_of_dvd _ (by decide : 2 ∣ 4)).symm.trans (congrArg (· % 2) hword)
  | b4 => exact hword

theorem sub_offset_mod_bytes {off : Offset} {n : Size} (r : Reg) (h : off.toNat % n.bytes = 0) :
    (off.toNat - r.offset.toNat) % n.bytes = 0 :=
  Nat.sub_mod_eq_zero_of_mod_eq (h.trans (offset_mod_bytes r n).symm)

namespace Access
variable {t : Transaction} {n : Size} {r : Reg} (h : Access t n r)
include h

theorem code_eq : n.code = t.sz := code_of_ofCode h.size

theorem bytes_eq : n.bytes = 2 ^ t.sz.toNat := by rw [Size.bytes_eq, h.code_eq]

/-- The word of the selected operation is the access's word, so its width is the access's. -/
theorem allowsWidth_of_selectRow {i : Instr} (hrow : selectRow t = some i) : AllowsWidth t.isWrite r n := by
  obtain ⟨row, hr, hsel, rfl⟩ := exists_row_of_selectRow hrow
  have hwidth := width_of_word (row.instr t)
  rw [word_of_selects row hr t hsel] at hwidth
  obtain hsz | ⟨hw, hdata⟩ | ⟨hw, hdigest⟩ := hwidth
  · exact .inl (Size.code_injective (h.code_eq.trans hsz))
  · exact .inr (.inl ⟨hw, Option.some.inj (h.reg.symm.trans hdata)⟩)
  · exact .inr (.inr ⟨hw, Option.some.inj (h.reg.symm.trans hdigest)⟩)

/-- Conversely, by register: the fields fix the word of an allowed access up to an operand of its row. -/
theorem selectRow_isSome_of_allowsWidth (halign : t.off.toNat % n.bytes = 0)
    (hro : (t.isWrite && r.readOnly) = false) (hwidth : AllowsWidth t.isWrite r n) :
    (selectRow t).isSome = true := by
  obtain ⟨hlo, hhi⟩ := regAt_range h.reg
  have htw := tw_eq_portWord h.rsv
  rw [← h.code_eq] at htw
  have word_access (hn : n = .b4) (hdigest : r ≠ .digest) (htable : r ≠ .table) : (selectRow t).isSome = true := by
    subst hn
    rw [offset_eq_of_aligned h.reg hdigest htable halign] at htw
    exact selectRow_isSome_of_tw htw (selectRow_isSome_wordAccess _ htable hro)
  cases r with
  | data =>
    cases hw : t.isWrite with
    | false => exact word_access (by simpa [AllowsWidth, hw] using hwidth) (by decide) (by decide)
    | true =>
      obtain ⟨lane, hoff, hlane⟩ := exists_offset_add (k := 2) hlo hhi (by decide)
      rw [hw, hoff] at htw
      exact selectRow_isSome_of_tw htw
        (selectRow_isSome_dataWrite n lane (hlane ▸ sub_offset_mod_bytes .data halign))
  | digest =>
    have hread : t.isWrite = false := by simpa [Reg.readOnly] using hro
    obtain ⟨k, hoff, hk⟩ := exists_offset_add (k := 3) hlo hhi (by decide)
    rw [hread, hoff] at htw
    exact selectRow_isSome_of_tw htw (selectRow_isSome_digestRead n k (hk ▸ sub_offset_mod_bytes .digest halign))
  | table =>
    have hread : t.isWrite = false := by simpa [Reg.readOnly] using hro
    obtain rfl : n = .b4 := by simpa [AllowsWidth] using hwidth
    obtain ⟨i, half, hoff⟩ := exists_tableOffset hlo halign
    rw [hread, hoff] at htw
    exact selectRow_isSome_of_tw htw (selectRow_isSome_tableRead i half)
  | _ => exact word_access (by simpa [AllowsWidth] using hwidth) (by decide) (by decide)

/-! #### The last two tests in numbers -/

theorem writesReadOnly_iff : (t.isWrite && r.readOnly) = true ↔ 0x8000 ≤ t.tw.toNat ∧
    (t.off.toNat ≤ 0x007 ∨ (0x014 ≤ t.off.toNat ∧ t.off.toNat ≤ 0x01B) ∨
      (0x048 ≤ t.off.toNat ∧ t.off.toNat ≤ 0x057) ∨ 0x800 ≤ t.off.toNat) := by
  rw [Bool.and_eq_true, Transaction.isWrite_eq_decide, decide_eq_true_iff, readOnly_iff h.reg]

theorem allowsWidth_iff : AllowsWidth t.isWrite r n ↔
    t.sz.toNat = 2 ∨ (0x8000 ≤ t.tw.toNat ∧ 0x040 ≤ t.off.toNat ∧ t.off.toNat ≤ 0x043) ∨
    (t.tw.toNat < 0x8000 ∧ 0x050 ≤ t.off.toNat ∧ t.off.toNat ≤ 0x057) := by
  have hb4 : n = .b4 ↔ t.sz.toNat = 2 := by
    rw [← h.code_eq]
    cases n <;> decide
  rw [AllowsWidth, hb4, eq_data_iff h.reg, eq_digest_iff h.reg, Transaction.isWrite_eq_decide, decide_eq_true_iff,
    decide_eq_false_iff_not, Nat.not_le]

end Access

/-- With RSV = 0, a size code that is not 3 and an offset outside the reserved ranges make an access. -/
theorem exists_access {t : Transaction} (hrsv : t.rsv = false) (hsz : t.sz.toNat ≠ 3)
    (hmapped : ¬ IsReserved t.off.toNat) : ∃ n r, Access t n r := by
  obtain ⟨n, hn⟩ := exists_ofCode hsz
  obtain ⟨r, hr⟩ := exists_regAt hmapped
  exact ⟨n, r, hrsv, hn, hr⟩

/-- Settles O5: each clause is one of the decoder's tests, with the word's fields as numbers. -/
theorem decodeFollowsTestOrder : Obligations.DecodeFollowsTestOrder := by
  intro tw v hrsv off sz reserved readOnly allowed
  obtain ⟨t, rfl, rfl⟩ : ∃ t : Transaction, t.tw = tw ∧ t.wdata = v := ⟨⟨tw, v⟩, rfl, rfl⟩
  have hoff : t.off.toNat = off := t.off_toNat
  have hsz : t.sz.toNat = sz := t.sz_toNat
  have access (h3 : sz ≠ 3) (hres : ¬ reserved) : ∃ n r, Access t n r := exists_access hrsv (hsz ▸ h3) (hoff ▸ hres)
  have remainder {n r} (h : Access t n r) : t.off.toNat % n.bytes = off % 2 ^ sz := by rw [h.bytes_eq, hoff, hsz]
  have writesReadOnly {n r} (h : Access t n r) :
      (t.isWrite && r.readOnly) = true ↔ 0x8000 ≤ t.tw.toNat ∧ readOnly := by rw [h.writesReadOnly_iff, hoff]
  have allowsWidth {n r} (h : Access t n r) : AllowsWidth t.isWrite r n ↔ allowed := by
    rw [h.allowsWidth_iff, hoff, hsz]
  refine ⟨fun h3 => ?_, fun h3 hres => ?_, fun h3 hres hal => ?_, fun h3 hres hal hw hro => ?_,
    fun h3 hres hal hro hwidth => ?_, fun h3 hres hal hro hwidth => ?_⟩
  · exact decode_of_badSz64 hrsv (ofCode_three (hsz.trans h3))
  · obtain ⟨n, hn⟩ := exists_ofCode (hsz ▸ h3)
    exact decode_of_unmapped hrsv hn (regAt_of_isReserved (hoff ▸ hres))
  · obtain ⟨n, r, h⟩ := access h3 hres
    exact h.decode_of_misaligned (remainder h ▸ hal)
  · obtain ⟨n, r, h⟩ := access h3 hres
    exact h.decode_of_readOnly ((remainder h).trans hal) ((writesReadOnly h).mpr ⟨hw, hro⟩)
  · obtain ⟨n, r, h⟩ := access h3 hres
    refine h.decode_of_badSize ((remainder h).trans hal) (Bool.eq_false_iff.mpr (mt (writesReadOnly h).mp hro)) ?_
    rw [Option.eq_none_iff_forall_ne_some]
    exact fun i hrow => hwidth ((allowsWidth h).mp (h.allowsWidth_of_selectRow hrow))
  · obtain ⟨n, r, h⟩ := access h3 hres
    have hal' := (remainder h).trans hal
    have hro' := Bool.eq_false_iff.mpr (mt (writesReadOnly h).mp hro)
    obtain ⟨i, hrow⟩ := Option.isSome_iff_exists.mp
      (h.selectRow_isSome_of_allowsWidth hal' hro' ((allowsWidth h).mpr hwidth))
    exact ⟨i, h.decode_of_row hal' hro' hrow⟩

end Sys2Proof

namespace Sys2Proof.Machine

/-! ### Assembly lines (R91) -/

theorem tw_assemble_asmOf (i : Instr) : (asmOf i).assemble.tw = i.word := by
  cases i with
  | wr8Data lane _ | wr16Data lane _ =>
    dsimp only [asmOf, Asm.assemble, busWrite, Instr.word]
    revert lane
    decide
  | rd8Digest k | rd16Digest k | rd32Digest k =>
    dsimp only [asmOf, Asm.assemble, busRead, Instr.word]
    revert k
    decide
  | rd32Table i h => exact (word_rd32Table i h).symm
  | _ =>
    dsimp only [asmOf, Asm.rd32, Asm.wr32, Asm.assemble, busRead, busWrite, Instr.word]
    decide

theorem wdata_assemble_asmOf (i : Instr) : (asmOf i).assemble.wdata = i.writeData := by cases i <;> rfl

theorem assemble_asmOf (i : Instr) : (asmOf i).assemble = encode i :=
  congrArg₂ Transaction.mk (tw_assemble_asmOf i) (wdata_assemble_asmOf i)

theorem mnemonic_asmOf_row : ∀ r ∈ rows, ∀ t : Transaction, (asmOf (r.instr t)).mnemonic = r.mnemonic := by
  simp only [rows, rowsControl, rowsConfiguration, rowsDatapath, List.cons_append, List.nil_append,
    List.forall_mem_cons, List.not_mem_nil, false_implies, implies_true, and_true, asmOf, Asm.rd32, Asm.wr32,
    Asm.mnemonic, Asm.verb, regName, Option.isSome, if_true, Bool.false_eq_true, if_false, String.reduceAppend]

/-- Settles O8: the line of every operation assembles to its word and write data; every row has its mnemonic. -/
theorem notationAgreesWithEncoding : Obligations.NotationAgreesWithEncoding := ⟨assemble_asmOf, mnemonic_asmOf_row⟩

/-- Settles O1: each word decodes with write data 0, and so with any. -/
theorem specWordsDecode : Obligations.SpecWordsDecode := by
  intro v
  exact ⟨decode_op_withData (by decide : decode ⟨0x4000, 0⟩ = .op .rd32Id) v,
    decode_op_withData (by decide : decode ⟨0xC008, 0⟩ = .op (.wr32Ctrl 0)) v,
    decode_op_withData (by decide : decode ⟨0xC010, 0⟩ = .op (.wr32Cmd 0)) v,
    decode_op_withData (by decide : decode ⟨0xC024, 0⟩ = .op (.wr32PolyHi 0)) v,
    decode_op_withData (by decide : decode ⟨0x8043, 0⟩ = .op (.wr8Data 3 0)) v,
    decode_op_withData (by decide : decode ⟨0xA042, 0⟩ = .op (.wr16Data 2 0)) v,
    decode_op_withData (by decide : decode ⟨0x0053, 0⟩ = .op (.rd8Digest 3)) v,
    decode_op_withData (by decide : decode ⟨0x2056, 0⟩ = .op (.rd16Digest 6)) v,
    decode_op_withData (by decide : decode ⟨0x4054, 0⟩ = .op (.rd32Digest 4)) v,
    decode_op_withData (by decide : decode ⟨0x4FFC, 0⟩ = .op (.rd32Table 255 1)) v,
    decode_op_withData (by decide : decode ⟨0x4808, 0⟩ = .op (.rd32Table 1 0)) v⟩

/-- Settles O12: the decoder refuses the word, and so does the step. -/
theorem reservedBitIsNoTransaction : Obligations.ReservedBitIsNoTransaction := by
  intro s t rest hp hrsv
  have hd : decode t = .notATransaction := decode_of_rsv hrsv
  exact ⟨hd, by rw [step_of_transaction hp, runTransaction, hd]⟩

/-! ### Ignored bits (R82, R88) -/

theorem getLsbD_of_extractLsb'_eq {v w : Word} {n j : Nat} (h : v.extractLsb' 0 n = w.extractLsb' 0 n) (hj : j < n) :
    v.getLsbD j = w.getLsbD j := by
  simpa [-BitVec.getLsbD_eq_getElem, hj] using congrArg (BitVec.getLsbD · j) h

theorem byteOf_of_extractLsb'_eq {v w : Word} {n j : Nat} (h : v.extractLsb' 0 n = w.extractLsb' 0 n)
    (hj : 8 * j + 8 ≤ n) : byteOf v j = byteOf w j := by
  apply BitVec.eq_of_getLsbD_eq
  intro b hb
  rw [byteOf, byteOf, BitVec.getLsbD_extractLsb', BitVec.getLsbD_extractLsb',
    getLsbD_of_extractLsb'_eq h (by omega)]

/-- Settles O9: each meaning looks only at bits that the two values share, and at no lane. -/
theorem ignoredWriteBits : Obligations.IgnoredWriteBits := by
  intro s v w lane lane'
  refine ⟨fun h => ?_, fun h => ?_, fun h => ?_, fun h => ?_, fun h => ?_⟩
  · rw [exec_wr32Ctrl, exec_wr32Ctrl, h]
  · rw [exec_wr32Status, exec_wr32Status, clearStatus, clearStatus, h]
  · rw [exec_wr32Cmd, exec_wr32Cmd, State.command, State.command, getLsbD_of_extractLsb'_eq h (by decide : 0 < 2),
      getLsbD_of_extractLsb'_eq h (by decide : 1 < 2)]
  · rw [exec_wr8Data, exec_wr8Data, dataBytes_b1, dataBytes_b1, byteOf_of_extractLsb'_eq h (by decide)]
  · rw [exec_wr16Data, exec_wr16Data, dataBytes_b2, dataBytes_b2, byteOf_of_extractLsb'_eq h (by decide),
      byteOf_of_extractLsb'_eq (j := 1) h (by decide)]

/-! ### CRC.FEED (R92, R133) -/

theorem messageOf_cons (i : Instr) (is : List Instr) :
    messageOf (i :: is) = (bytesFolded i).getD [] ++ messageOf is := rfl

theorem messageOf_feedBytes (m : List Byte) : messageOf (feedBytes m) = m := by
  induction m using feedBytes.induct with
  | case1 a b c d rest ih =>
    rw [feedBytes, messageOf_cons, bytesFolded, dataBytes_b4_append, ih]
    rfl
  | case2 a b c =>
    rw [feedBytes, messageOf_cons, messageOf_cons, bytesFolded, bytesFolded, dataBytes_b2_append,
      dataBytes_b1_setWidth]
    rfl
  | case3 a b =>
    rw [feedBytes, messageOf_cons, bytesFolded, dataBytes_b2_append]
    rfl
  | case4 a =>
    rw [feedBytes, messageOf_cons, bytesFolded, dataBytes_b1_setWidth]
    rfl
  | case5 => rfl

theorem isDataWrite_feedBytes (m : List Byte) : ∀ i ∈ feedBytes m, isDataWrite i = true := by
  induction m using feedBytes.induct with
  | case1 a b c d rest ih => exact List.forall_mem_cons.mpr ⟨rfl, ih⟩
  | case2 a b c => exact List.forall_mem_cons.mpr ⟨rfl, List.forall_mem_singleton.mpr rfl⟩
  | case3 a b => exact List.forall_mem_singleton.mpr rfl
  | case4 a => exact List.forall_mem_singleton.mpr rfl
  | case5 => exact List.forall_mem_nil _

/-- Settles O47, both parts along the recursion of `feedBytes`. -/
theorem feedCarriesTheMessage : Obligations.FeedCarriesTheMessage :=
  fun m => ⟨messageOf_feedBytes m, isDataWrite_feedBytes m⟩

/-! ### Runs of issued operations (R60, R92) -/

theorem run_ram_isSome {k : Nat} {s t : State} (h : core.run k s = .next t) :
    t.tableRam.isSome = s.tableRam.isSome := by
  induction k generalizing s with
  | zero =>
    cases h
    rfl
  | succ k ih =>
    cases hs : step s with
    | next u =>
      rw [run_succ_of_next hs] at h
      exact (ih h).trans (step_ram_isSome hs)
    | fault r => cases r
    | refused r =>
      have hstep : core.step s = .refused r := hs
      simp [Host.Core.run, hstep] at h

theorem exec_pending {i : Instr} {s t : State} (h : exec i s = .next t) : t.pending = s.pending := by
  obtain ⟨t', d, ht, _, hpending⟩ := exec_answers i s
  rw [h] at ht
  cases ht
  exact hpending

section
variable {s u t : State} {i j : Instr} {rest : List HostEvent}

theorem run_issue_one (hp : s.pending = issue [i] ++ rest) (hi : i.wf = true)
    (ht : exec i ({ s with pending := rest } : State).hold = .next t) : core.run 1 s = .next t :=
  (run_issue_cons hp (decodeOfEncode i hi) ht).trans (run_zero t)

theorem run_issue_two (hp : s.pending = issue [i, j] ++ rest) (hi : i.wf = true) (hj : j.wf = true)
    (hu : exec i ({ s with pending := issue [j] ++ rest } : State).hold = .next u)
    (ht : exec j ({ u with pending := rest } : State).hold = .next t) : core.run 2 s = .next t :=
  (run_issue_cons hp (decodeOfEncode i hi) hu).trans (run_issue_one (exec_pending hu) hj ht)

end

/-- `t` has the registers and responses of `u`, and `rest` pending; the RAM, BUILDING and the draws are left open. -/
def AgreesButBuilder (rest : List HostEvent) (t u : State) : Prop :=
  t = { u with pending := rest, building := t.building, tableRam := t.tableRam, ramDraws := t.ramDraws }

theorem agreesButBuilder_iff {rest : List HostEvent} {t u : State} : AgreesButBuilder rest t u ↔
    (t.reflect = u.reflect ∧ t.err = u.err ∧ t.cause = u.cause ∧ t.errinfo = u.errinfo) ∧
    (t.poly = u.poly ∧ t.seed = u.seed ∧ t.xorout = u.xorout) ∧
    (t.acc = u.acc ∧ t.bytecount = u.bytecount) ∧ (t.pending = rest ∧ t.responses = u.responses) := by
  cases t
  cases u
  simp only [AgreesButBuilder, State.mk.injEq]
  tauto

/-! ### DATA writes in sequence (R133) -/

theorem exec_of_bytesFolded {i : Instr} {bs : List Byte} (h : bytesFolded i = some bs) (s : State) :
    exec i s = .next (State.respond ⟨.okay, none⟩ (s.foldBytes bs)) := by
  cases i <;> cases h <;> rfl

/-- The first write folds its bytes; the others, from the state it leaves, fold theirs. -/
theorem run_dataWrites (rest : List HostEvent) (is : List Instr) (s : State) (his : ∀ i ∈ is, isDataWrite i = true)
    (hp : s.pending = issue is ++ rest) :
    ∃ t, core.run is.length s = .next t ∧ AgreesButBuilder rest t { s with
      acc := foldMessage s.poly s.reflect s.acc (messageOf is)
      bytecount := s.bytecount + BitVec.ofNat 32 (messageOf is).length
      responses := s.responses ++ List.replicate is.length ⟨.okay, none⟩ } := by
  induction is generalizing s with
  | nil => exact ⟨s, run_zero s, agreesButBuilder_iff.mpr (by simpa [messageOf, issue] using hp)⟩
  | cons i is ih =>
    obtain ⟨hi, his⟩ := List.forall_mem_cons.mp his
    obtain ⟨hfolds, hwf⟩ := Bool.and_eq_true_iff.mp hi
    obtain ⟨bs, hbs⟩ := Option.isSome_iff_exists.mp hfolds
    have hu := exec_of_bytesFolded hbs ({ s with pending := issue is ++ rest } : State).hold
    obtain ⟨t, hrun, ht⟩ := ih _ his (exec_pending hu)
    refine ⟨t, (run_issue_cons hp (decodeOfEncode i hwf) hu).trans hrun, agreesButBuilder_iff.mpr ?_⟩
    simpa [State.foldBytes_eq, messageOf_cons, hbs, BitVec.ofNat_add, BitVec.add_assoc, List.replicate_succ]
      using agreesButBuilder_iff.mp ht

/-! ### Digest words (R138, R143) -/

theorem byteOf_packBytes_zero (b : Byte) (bs : List Byte) : byteOf (packBytes (b :: bs)) 0 = b := by
  apply BitVec.eq_of_getLsbD_eq
  intro j hj
  have hlt : j < 32 := by omega
  simp [byteOf, packBytes, hj, hlt]

theorem byteOf_packBytes_succ (b : Byte) (bs : List Byte) {k : Nat} (hk : k < 3) :
    byteOf (packBytes (b :: bs)) (k + 1) = byteOf (packBytes bs) k := by
  apply BitVec.eq_of_getLsbD_eq
  intro j hj
  have hbits : 8 * (k + 1) + j < 32 ∧ ¬ 8 * (k + 1) + j < 8 ∧ 8 * (k + 1) + j - 8 = 8 * k + j := by omega
  have hb : b.getLsbD (8 * (k + 1) + j) = false := BitVec.getLsbD_of_ge b _ (by omega)
  simp [byteOf, packBytes, hj, hbits, hb, -BitVec.getLsbD_eq_getElem]

theorem byteOf_digestRead_b4 (R : DWord) (k : BitVec 3) {j : Nat} (hj : j < 4) :
    byteOf (digestRead .b4 R k) j = digestByte R (k.toNat + j) := by
  have hbytes : digestRead .b4 R k = packBytes [digestByte R k.toNat, digestByte R (k.toNat + 1),
    digestByte R (k.toNat + 2), digestByte R (k.toNat + 3)] := rfl
  rw [hbytes]
  interval_cases j <;> simp [byteOf_packBytes_zero, byteOf_packBytes_succ]

theorem extractLsb'_append_of_lt (hi lo : Word) {k : Nat} (hk : k < 4) :
    (hi ++ lo : DWord).extractLsb' (8 * k) 8 = byteOf lo k :=
  BitVec.extractLsb'_append_eq_of_add_le (by omega)

theorem extractLsb'_append_of_le (hi lo : Word) {k : Nat} (hk : 4 ≤ k) :
    (hi ++ lo : DWord).extractLsb' (8 * k) 8 = byteOf hi (k - 4) := by
  rw [BitVec.extractLsb'_append_eq_of_le (by omega), byteOf, Nat.mul_sub]

theorem digest_bytes (R : DWord) (k : Fin 8) :
    (digestRead .b4 R 4 ++ digestRead .b4 R 0 : DWord).extractLsb' (8 * k.val) 8 = digestByte R k.val := by
  by_cases hk : k.val < 4
  · rw [extractLsb'_append_of_lt _ _ hk, byteOf_digestRead_b4 R 0 hk]
    exact congrArg (digestByte R) (Nat.zero_add _)
  · rw [extractLsb'_append_of_le _ _ (Nat.not_lt.mp hk), byteOf_digestRead_b4 R 4 (by omega)]
    exact congrArg (digestByte R) (Nat.add_sub_of_le (Nat.not_lt.mp hk))

/-! ### The pseudo-instructions (R92) -/

/-- Settles O50: each expansion run step by step, an operation's effect by `rfl`; the last state, field by field. -/
theorem pseudoInstructionEffects : Obligations.PseudoInstructionEffects := by
  intro s p rest hp
  cases p with
  | init =>
    have hrun := run_issue_one hp rfl rfl
    exact ⟨_, hrun, run_ram_isSome hrun, agreesButBuilder_iff.mpr (by
      simp [Pseudo.expand, State.command_of_init])⟩
  | srst =>
    have hrun := run_issue_one hp rfl rfl
    exact ⟨_, hrun, run_ram_isSome hrun, agreesButBuilder_iff.mpr (by
      simp [Pseudo.expand, State.command_of_srst, Config.polyReset])⟩
  | poly v | seed v | xorout v | acc v =>
    have hrun := run_issue_two hp rfl rfl rfl rfl
    exact ⟨_, hrun, run_ram_isSome hrun, agreesButBuilder_iff.mpr (by simp [Pseudo.expand])⟩
  | feed m =>
    obtain ⟨t, hrun, ht⟩ := run_dataWrites rest (feedBytes m) s (isDataWrite_feedBytes m) hp
    rw [messageOf_feedBytes] at ht
    exact ⟨t, hrun, run_ram_isSome hrun, ht⟩
  | result =>
    have hrun := run_issue_two hp rfl rfl rfl rfl
    exact ⟨_, hrun, run_ram_isSome hrun, loHalf s.result, hiHalf s.result, hiHalf_append_loHalf _,
      agreesButBuilder_iff.mpr (by simp [State.result])⟩
  | digest =>
    have hrun := run_issue_two hp rfl rfl rfl rfl
    exact ⟨_, hrun, run_ram_isSome hrun, digestRead .b4 s.result 0, digestRead .b4 s.result 4,
      digest_bytes s.result, agreesButBuilder_iff.mpr (by simp [State.result])⟩

end Sys2Proof.Machine
end

section
/-! # Proofs of the table family (spec/40_table.md)

The shift steps as the spec writes them, the laws of the table's entries, the fold of a message as a linear map, the
residue of a message followed by its checksum, and the table's reads. -/

namespace Sys2Proof.Machine

/-! ### The shift steps as the spec writes them (R110, R111, R117) -/

theorem shiftStep_true (P : DWord) :
    shiftStep P true = fun c : DWord => if c.getLsbD 0 then (c >>> 1) ^^^ P else c >>> 1 := rfl

theorem shiftStep_false (P : DWord) :
    shiftStep P false = fun c : DWord => if c.getLsbD 63 then (c <<< 1) ^^^ P else c <<< 1 := rfl

/-- Settles O33: an entry is by definition eight steps of the index where its byte enters. -/
theorem tableConstruction : Obligations.TableConstruction := by
  refine ⟨rfl, fun P i => ⟨?_, ?_⟩⟩
  · rw [← shiftStep_true]
    rfl
  · rw [← shiftStep_false]
    rfl

/-- Settles O35: both clauses are the one equality of the table fold and the bit-serial fold. -/
theorem tableStepIsBitSerial : Obligations.TableStepIsBitSerial := by
  intro P a b
  rw [← shiftStep_true, ← shiftStep_false]
  exact ⟨fold_eq_foldSerial P true a b, fold_eq_foldSerial P false a b⟩

/-! ### The laws of the entries (R112) -/

@[simp] theorem enterByte_zero (r : Bool) : enterByte r 0#8 = 0#64 := by cases r <;> rfl

@[simp] theorem tableEntry_zero (P : DWord) (r : Bool) : tableEntry P r 0#8 = 0#64 := by simp [tableEntry]

theorem tableEntry_xor (P : DWord) (r : Bool) (i j : Byte) :
    tableEntry P r (i ^^^ j) = tableEntry P r i ^^^ tableEntry P r j := by
  rw [tableEntry, enterByte_xor, shiftStep8_xor, tableEntry, tableEntry]

/-- Seven steps shift the top bit of the byte to the tested end, and the eighth XORs POLY in. -/
theorem tableEntry_reflected_top (P : DWord) : tableEntry P true 0x80 = P := by
  have h7 : (shiftStep P true)^[7] (enterByte true 0x80) = 1#64 := shiftStep_iterate_reflected P 7 _ (by decide)
  rw [tableEntry, shiftStep8, Function.iterate_succ_apply', h7]
  exact BitVec.zero_xor

theorem tableEntry_normal_bottom (P : DWord) : tableEntry P false 0x01 = P := by
  have h7 : (shiftStep P false)^[7] (enterByte false 0x01) = 1#64 <<< 63 :=
    shiftStep_iterate_normal P 7 (by decide) _ (by decide)
  rw [tableEntry, shiftStep8, Function.iterate_succ_apply', h7]
  exact BitVec.zero_xor

/-- With POLY = 0 any number of steps only shifts. -/
theorem shiftStep_poly_zero_iterate (r : Bool) (n : Nat) (c : DWord) :
    (shiftStep 0#64 r)^[n] c = if r then c >>> n else c <<< n := by
  induction n with
  | zero => cases r <;> simp
  | succ n ih =>
    rw [Function.iterate_succ_apply', ih]
    cases r with
    | true => simp [shiftStep_true, BitVec.shiftRight_add]
    | false => simp [shiftStep_false, BitVec.shiftLeft_add]

/-- With POLY = 0 the index is shifted out whole. -/
theorem tableEntry_poly_zero (r : Bool) (i : Byte) : tableEntry 0#64 r i = 0#64 := by
  rw [tableEntry, shiftStep8, shiftStep_poly_zero_iterate]
  cases r with
  | true =>
    apply BitVec.eq_of_getLsbD_eq
    intro j _
    simp [enterByte]
  | false => exact (BitVec.shiftLeft_add ..).symm.trans (BitVec.shiftLeft_eq_zero (by decide))

/-- Settles O34: the values of entries 0, 0x80 and 0x01, linearity, and the table of POLY = 0. -/
theorem tableLaws : Obligations.TableLaws := fun P r =>
  ⟨tableEntry_zero P r, tableEntry_reflected_top P, tableEntry_normal_bottom P, tableEntry_xor P r,
    fun i => ⟨tableEntry_poly_zero true i, tableEntry_poly_zero false i⟩⟩

/-! ### A fold is linear (R130, R131) -/

theorem fold_xor (P : DWord) (r : Bool) (a a' : DWord) (b b' : Byte) :
    fold P r (a ^^^ a') (b ^^^ b') = fold P r a b ^^^ fold P r a' b' := by
  simp only [fold_eq_foldSerial, foldSerial, enterByte_xor, ← shiftStep8_xor]
  congr 1
  ac_rfl

@[simp] theorem fold_zero (P : DWord) (r : Bool) : fold P r 0#64 0#8 = 0#64 := by
  simp [fold_eq_foldSerial, foldSerial]

/-- Two messages of equal length folded together, byte against byte. -/
theorem foldMessage_zipWith_xor (P : DWord) (r : Bool) {m₁ m₂ : List Byte} (h : m₁.length = m₂.length)
    (a a' : DWord) : foldMessage P r (a ^^^ a') (List.zipWith (· ^^^ ·) m₁ m₂) =
    foldMessage P r a m₁ ^^^ foldMessage P r a' m₂ := by
  induction m₁ generalizing m₂ a a' with
  | nil =>
    obtain rfl : m₂ = [] := List.length_eq_zero_iff.mp h.symm
    rfl
  | cons b m₁ ih =>
    cases m₂ with
    | nil => cases h
    | cons b' m₂ =>
      rw [List.zipWith_cons_cons, foldMessage_cons, fold_xor, ih (Nat.succ.inj h), foldMessage_cons, foldMessage_cons]

theorem foldMessage_replicate_zero (P : DWord) (r : Bool) (n : Nat) :
    foldMessage P r 0 (List.replicate n 0) = 0 := by
  induction n with
  | zero => rfl
  | succ n ih => simpa [List.replicate_succ] using ih

/-- Settles O51: zero bytes leave ACC = 0, and the message is folded from there. -/
theorem zeroPrefixAndLinearity : Obligations.ZeroPrefixAndLinearity := by
  refine ⟨fun P r n m => ⟨foldMessage_replicate_zero P r n, ?_⟩, fun P r m₁ m₂ h => ?_, rfl,
    foldMessage_replicate_zero _ _⟩
  · rw [foldMessage_append, foldMessage_replicate_zero]
  · exact foldMessage_zipWith_xor P r h 0 0

/-! ### The residue (R146) -/

/-- The low byte folded into the accumulator cancels it: the table index is 0. -/
theorem fold_lowByte (P a : DWord) : fold P true a (a.extractLsb' 0 8) = a >>> 8 := by
  have hindex : foldIndex true a (a.extractLsb' 0 8) = 0#8 := by
    apply BitVec.eq_of_getLsbD_eq
    intro j hj
    have hlt : j < 64 := by omega
    simp [foldIndex, hj, hlt]
  rw [fold, hindex, tableEntry_zero]
  exact BitVec.xor_zero

/-- The low `n` bytes of `a`, least significant first. -/
def lowBytes (a : DWord) (n : Nat) : List Byte := (List.range n).map fun j => a.extractLsb' (8 * j) 8

theorem lowBytes_succ (a : DWord) (n : Nat) :
    lowBytes a (n + 1) = lowBytes a n ++ [(a >>> (8 * n)).extractLsb' 0 8] := by
  have hbyte : a.extractLsb' (8 * n) 8 = (a >>> (8 * n)).extractLsb' 0 8 := by
    apply BitVec.eq_of_getLsbD_eq
    intro j hj
    simp [hj]
  rw [lowBytes, List.range_succ, List.map_append, lowBytes, ← hbyte]
  rfl

/-- Each byte cancels the low byte of what the ones before it left. -/
theorem foldMessage_lowBytes (P a : DWord) (n : Nat) : foldMessage P true a (lowBytes a n) = a >>> (8 * n) := by
  induction n with
  | zero => exact BitVec.ushiftRight_zero a
  | succ n ih =>
    rw [lowBytes_succ, foldMessage_append, ih, foldMessage_cons, foldMessage_nil, fold_lowByte,
      ← BitVec.shiftRight_add]
    rfl

/-- The digest bytes after "a" leave what the spec's table of laws gives, 0xE0C355B478AC514D; the checksum is put in
as a value, so that it is evaluated once. -/
theorem crc64_append_digestBytes_ne_zero :
    crc64 ([0x61] ++ (List.range 8).map (digestByte (crc64 [0x61]))) ≠ 0 := by
  have hcrc : crc64 [0x61] = 0x2CAF25044A02145C := by decide
  rw [hcrc]
  decide

/-- Settles O52: eight bytes shift the whole checksum out; the counterexample is the message "a". -/
theorem residueIsZero : Obligations.ResidueIsZero := by
  refine ⟨fun P m => ?_, [0x61], crc64_append_digestBytes_ne_zero⟩
  have hresidue := foldMessage_lowBytes P (foldMessage P true 0 m) 8
  exact (foldMessage_append ..).trans (hresidue.trans (BitVec.ushiftRight_eq_zero (by decide)))

/-! ### Table reads (R86, R114) -/

theorem word_rd32Table_eq_append (i : BitVec 8) (h : BitVec 1) :
    (Instr.rd32Table i h).word = 0b01001#5 ++ i ++ h ++ 0#2 := by
  apply BitVec.eq_of_getLsbD_eq
  intro j hj
  rw [BitVec.getLsbD_append, BitVec.getLsbD_append, BitVec.getLsbD_append]
  interval_cases j <;> simp [Instr.word]

/-- An access at an offset from 0x800 on reaches TABLE. -/
theorem access_table {off : Offset} (hoff : 0x800 ≤ off.toNat) (d : BitVec 1) (n : Size) (v : Word) :
    Access ⟨portWord d n.code off, v⟩ n .table := by
  refine ⟨rsv_portWord .., ?_, ?_⟩
  · rw [sz_portWord, ofCode_code]
  · rw [off_portWord]
    exact if_pos hoff

theorem mod_bytes_of_mod_four {k : Nat} (h : k % 4 = 0) (n : Size) : k % n.bytes = 0 := by
  have hdvd : n.bytes ∣ 4 := by cases n <;> decide
  exact Nat.mod_eq_zero_of_dvd (hdvd.trans (Nat.dvd_of_mod_eq_zero h))

/-- A width that the register does not allow selects no row (R55). -/
theorem selectRow_of_not_allowsWidth {t : Transaction} {n : Size} {r : Reg} (h : Access t n r)
    (hwidth : ¬ AllowsWidth t.isWrite r n) : selectRow t = none := by
  rw [Option.eq_none_iff_forall_ne_some]
  exact fun _ hrow => hwidth (h.allowsWidth_of_selectRow hrow)

section
variable {off : Offset} (hoff : 0x800 ≤ off.toNat)
include hoff

theorem writesReadOnly_table (halign : off.toNat % 4 = 0) : WritesReadOnly off := by
  intro n v
  refine (access_table hoff 1 n v).decode_of_readOnly ?_ ?_
  · rw [off_portWord]
    exact mod_bytes_of_mod_four halign n
  · rw [isWrite_portWord]
    rfl

theorem decode_narrowRead_table (halign : off.toNat % 4 = 0) {n : Size} (hn : n ≠ .b4) :
    decode (busRead off n) = .busError .badSize := by
  have h := access_table hoff 0 n 0
  refine h.decode_of_badSize ?_ ?_ (selectRow_of_not_allowsWidth h (by simp [AllowsWidth, hn]))
  · rw [off_portWord]
    exact mod_bytes_of_mod_four halign n
  · rw [isWrite_portWord]
    rfl

theorem decode_misalignedRead_table (halign : off.toNat % 4 ≠ 0) :
    decode (busRead off .b4) = .busError .misaligned := by
  refine (access_table hoff 0 .b4 0).decode_of_misaligned ?_
  rw [off_portWord]
  exact halign

end

/-- Settles O36: the word is the operation's own, the answer is one half of the entry, and the errors are the access's
alignment, direction and width. -/
theorem tableReads : Obligations.TableReads := by
  refine ⟨fun i h v => ?_, fun s i => ⟨rfl, rfl⟩, fun off hoff => ⟨fun halign => ⟨?_, ?_, ?_⟩, ?_⟩⟩
  · rw [← word_rd32Table_eq_append]
    exact decode_rd32Table i h v
  · exact writesReadOnly_table hoff halign
  · exact decode_narrowRead_table hoff halign (by decide)
  · exact decode_narrowRead_table hoff halign (by decide)
  · exact decode_misalignedRead_table hoff

end Sys2Proof.Machine
end

section
/-! # Proofs of the digest family (spec/41_digest.md)

The accesses a register refuses for alignment and direction, the fold, a DATA write as the fold of its bytes, runs of
DATA writes, and the reads of RESULT and DIGEST as bytes of `R = ACC XOR XOROUT`. -/

namespace Sys2Proof.Machine

/-! ### Misaligned accesses and writes of a read-only register (R84, R201) -/

theorem regAt_of_data_range {off : Offset} (h : 0x040 ≤ off.toNat ∧ off.toNat ≤ 0x043) : regAt off = some .data := by
  obtain ⟨r, hr⟩ := exists_regAt (off := off) (by unfold IsReserved; omega)
  rw [hr, (eq_data_iff hr).mpr h]

theorem regAt_of_digest_range {off : Offset} (h : 0x050 ≤ off.toNat ∧ off.toNat ≤ 0x057) :
    regAt off = some .digest := by
  obtain ⟨r, hr⟩ := exists_regAt (off := off) (by unfold IsReserved; omega)
  rw [hr, (eq_digest_iff hr).mpr h]

section
variable {off : Offset} {r : Reg} (hreg : regAt off = some r)
include hreg

theorem access_portWord (d : BitVec 1) (n : Size) (v : Word) : Access ⟨portWord d n.code off, v⟩ n r :=
  ⟨rsv_portWord .., by rw [sz_portWord, ofCode_code], by rw [off_portWord, hreg]⟩

theorem decode_busRead_misaligned {n : Size} (halign : off.toNat % n.bytes ≠ 0) :
    decode (busRead off n) = .busError .misaligned :=
  (access_portWord hreg 0 n 0).decode_of_misaligned (by rwa [off_portWord])

theorem decode_busWrite_misaligned {n : Size} (halign : off.toNat % n.bytes ≠ 0) (v : Word) :
    decode (busWrite off n v) = .busError .misaligned :=
  (access_portWord hreg 1 n v).decode_of_misaligned (by rwa [off_portWord])

theorem writesReadOnly_of_readOnly (hro : r.readOnly = true) (halign : off.toNat % 4 = 0) : WritesReadOnly off := by
  intro n v
  refine (access_portWord hreg 1 n v).decode_of_readOnly ?_ ?_
  · rw [off_portWord]
    exact mod_bytes_of_mod_four halign n
  · rw [isWrite_portWord, hro]
    rfl

end

/-- Settles O43: the two words, the answers as `exec` gives them, and writes of the two read-only registers. -/
theorem resultReads : Obligations.ResultReads := by
  refine ⟨fun v => ⟨decode_word (i := .rd32ResultLo) rfl v, decode_word (i := .rd32ResultHi) rfl v⟩,
    fun s => ⟨rfl, rfl⟩, ?_, ?_⟩
  · exact writesReadOnly_of_readOnly (r := .resultLo) (by decide) rfl rfl
  · exact writesReadOnly_of_readOnly (r := .resultHi) (by decide) rfl rfl

/-! ### Folding (R130 to R132) -/

theorem State.foldBytes_append (s : State) (bs bs' : List Byte) :
    s.foldBytes (bs ++ bs') = (s.foldBytes bs).foldBytes bs' :=
  List.foldl_append

/-- Settles O40: the fold of one byte unfolds to the spec's in each order, and CTRL.REFLECT picks the order. -/
theorem foldOfOneByte : Obligations.FoldOfOneByte := by
  refine ⟨fun P a b => ⟨rfl, rfl⟩, fun s b => ?_, State.foldBytes_append⟩
  cases hr : s.reflect <;> simp [State.foldByte, hr]

theorem State.foldByte_respond (r : Response) (s : State) (b : Byte) :
    (s.respond r).foldByte b = (s.foldByte b).respond r := rfl

/-- Replacing the responses drops the one just given. -/
theorem State.with_responses_respond (r : Response) (s : State) (l : List Response) :
    { s.respond r with responses := l } = { s with responses := l } := rfl

/-! ### DATA writes (R133 to R136) -/

/-- Settles O41: the words, the bytes of each width folded, and the misaligned offsets, all of which lie in DATA. -/
theorem dataWrites : Obligations.DataWrites := by
  refine ⟨fold_zero, fun lane v => decode_word (i := .wr8Data lane 0) rfl v, fun v => ⟨?_, ?_, ?_⟩,
    fun s lane v => ⟨?_, ?_, ?_⟩, fun v => ⟨?_, ?_, fun off hoff => ?_⟩⟩
  · exact decode_word (i := .wr16Data 0 0) rfl v
  · exact decode_word (i := .wr16Data 2 0) rfl v
  · exact decode_word (i := .wr32Data 0) rfl v
  · rw [exec_wr8Data, State.foldBytes_eq]
    rfl
  · rw [exec_wr16Data, State.foldBytes_eq]
    rfl
  · rw [exec_wr32Data, State.foldBytes_eq]
    rfl
  · exact decode_busWrite_misaligned (regAt_of_data_range (by decide)) (by decide) v
  · exact decode_busWrite_misaligned (regAt_of_data_range (by decide)) (by decide) v
  · have hdata : ∀ off ∈ [0x041#12, 0x042#12, 0x043#12],
        (0x040 ≤ off.toNat ∧ off.toNat ≤ 0x043) ∧ off.toNat % Size.b4.bytes ≠ 0 := by simp [Size.bytes]
    obtain ⟨hrange, halign⟩ := hdata off hoff
    exact decode_busWrite_misaligned (regAt_of_data_range hrange) halign v

theorem byteOf_ushiftRight (v : Word) (j : Nat) : byteOf (v >>> (8 * j)) 0 = byteOf v j := by
  apply BitVec.eq_of_getLsbD_eq
  intro b hb
  simp [byteOf, hb]

/-- A byte write of lane `j` of a value folds byte `j`. -/
theorem exec_wr8Data_lane (lane : BitVec 2) (v : Word) (j : Nat) (s : State) :
    exec (.wr8Data lane (v >>> (8 * j))) s = .next ((s.foldByte (byteOf v j)).respond ⟨.okay, none⟩) := by
  rw [exec_wr8Data, dataBytes_b1, byteOf_ushiftRight]
  rfl

/-- Settles O42: each byte write folds the byte of its lane, so but for the responses between them the same folds are
made in the same order. -/
theorem packedWriteEqualsByteWrites : Obligations.PackedWriteEqualsByteWrites := by
  intro s v l
  refine ⟨_, _, _, _, _, _, exec_wr16Data l v s, exec_wr32Data v s, exec_wr8Data_lane 0 v 0 s,
    exec_wr8Data_lane 1 v 1 _, exec_wr8Data_lane 2 v 2 _, exec_wr8Data_lane 3 v 3 _, ?_, ?_⟩
  · simp only [State.foldByte_respond, State.with_responses_respond]
    rfl
  · simp only [State.foldByte_respond, State.with_responses_respond]
    rfl

/-- Settles O46: the run of DATA writes, register by register. -/
theorem dataWritesFoldTheMessage : Obligations.DataWritesFoldTheMessage := by
  intro s is rest his hp
  obtain ⟨t, hrun, ht⟩ := run_dataWrites rest is s his hp
  obtain ⟨⟨hreflect, herr, hcause, herrinfo⟩, ⟨hpoly, hseed, hxorout⟩, ⟨hacc, hcount⟩, hpending, hresponses⟩ :=
    agreesButBuilder_iff.mp ht
  exact ⟨t, hrun, hacc, hcount, hresponses, hpending, hreflect, herr, hcause, herrinfo, hpoly, hseed, hxorout⟩

/-- CRC.INIT's write (R92, R166). -/
theorem exec_init (s : State) : exec (.wr32Cmd 1) s = .next (s.initMessage.respond ⟨.okay, none⟩) := by
  rw [exec_wr32Cmd, State.command_of_init rfl rfl]

/-- Settles O48: CRC.INIT clears ACC to SEED = 0, and the run of CRC.FEED's DATA writes folds the message from there. -/
theorem blockComputesCrc64 : Obligations.BlockComputesCrc64 := by
  intro s m rest hreflect hpoly hseed hxorout hp
  have hinit := exec_init ({ s with pending := issue (feedBytes m) ++ rest } : State).hold
  obtain ⟨t, hrun, hacc, hcount, -, hpending, -, -, -, -, -, -, hxor⟩ :=
    dataWritesFoldTheMessage _ (feedBytes m) rest (isDataWrite_feedBytes m) (exec_pending hinit)
  refine ⟨t, (run_issue_cons hp (decodeOfEncode (.wr32Cmd 1) rfl) hinit).trans hrun, ?_, ?_, hpending⟩
  · rw [hacc, hxor, messageOf_feedBytes]
    simp [hreflect, hpoly, hseed, hxorout, crc64]
  · rw [hcount, messageOf_feedBytes]
    simp

/-! ### Digest bytes and their packing (R138, R141 to R143) -/

theorem digestByte_eq_setWidth (R : DWord) (k : Nat) : digestByte R k = (R >>> (56 - 8 * k)).setWidth 8 := by
  apply BitVec.eq_of_getLsbD_eq
  intro j hj
  simp [digestByte, hj]

/-- A 32-bit value is determined by its four bytes. -/
theorem dataBytes_b4_injective {v w : Word} (h : dataBytes .b4 v = dataBytes .b4 w) : v = w := by
  simp only [dataBytes_b4, List.cons.injEq, and_true] at h
  obtain ⟨h0, h1, h2, h3⟩ := h
  apply BitVec.eq_of_getLsbD_eq
  intro j hj
  have hbyte : byteOf v (j / 8) = byteOf w (j / 8) := by
    have hlt : j / 8 < 4 := by omega
    interval_cases j / 8 <;> assumption
  have hbit := congrArg (BitVec.getLsbD · (j % 8)) hbyte
  simpa [byteOf, Nat.mod_lt, Nat.div_add_mod, -BitVec.getLsbD_eq_getElem] using hbit

theorem packBytes_four (a b c d : Byte) : packBytes [a, b, c, d] = d ++ c ++ b ++ a := by
  apply dataBytes_b4_injective
  rw [dataBytes_b4_append]
  simp [byteOf_packBytes_zero, byteOf_packBytes_succ]

theorem packBytes_two (a b : Byte) : packBytes [a, b] = 0#16 ++ b ++ a :=
  packBytes_four a b 0 0

theorem packBytes_one (a : Byte) : packBytes [a] = a.setWidth 32 :=
  BitVec.zero_or

theorem digestRead_b4_eq_append (R : DWord) (k : BitVec 3) : digestRead .b4 R k =
    digestByte R (k.toNat + 3) ++ digestByte R (k.toNat + 2) ++ digestByte R (k.toNat + 1) ++ digestByte R k.toNat :=
  packBytes_four ..

/-- Settles O44: the words of the legal indices, the packed digest bytes, and the offsets of DIGEST that are
misaligned or written. -/
theorem digestReads : Obligations.DigestReads := by
  refine ⟨fun k v => ?_, fun k hk v => ?_, fun k hk v => ?_, fun s => ?_, fun off hoff => ?_, fun off hoff => ?_,
    fun off hoff => ?_⟩
  · exact decode_word (i := .rd8Digest k) rfl v
  · have hwf : ∀ k ∈ [0#3, 2#3, 4#3, 6#3], (Instr.rd16Digest k).wf = true := by decide
    exact decode_word (hwf k hk) v
  · have hwf : ∀ k ∈ [0#3, 4#3], (Instr.rd32Digest k).wf = true := by decide
    exact decode_word (hwf k hk) v
  · intro R D answers
    have hD : digestByte R = D := funext (digestByte_eq_setWidth R)
    refine ⟨fun k => ?_, fun k _ => ?_, fun k _ => ?_⟩
    · rw [← hD, ← packBytes_one]
      rfl
    · rw [← hD, ← packBytes_two]
      rfl
    · rw [← hD, ← digestRead_b4_eq_append]
      rfl
  · have hdigest : ∀ off ∈ [0x051#12, 0x053#12, 0x055#12, 0x057#12],
        (0x050 ≤ off.toNat ∧ off.toNat ≤ 0x057) ∧ off.toNat % Size.b2.bytes ≠ 0 := by simp [Size.bytes]
    obtain ⟨hrange, halign⟩ := hdigest off hoff
    exact decode_busRead_misaligned (regAt_of_digest_range hrange) halign
  · have hdigest : ∀ off ∈ [0x051#12, 0x052#12, 0x053#12, 0x055#12, 0x056#12, 0x057#12],
        (0x050 ≤ off.toNat ∧ off.toNat ≤ 0x057) ∧ off.toNat % Size.b4.bytes ≠ 0 := by simp [Size.bytes]
    obtain ⟨hrange, halign⟩ := hdigest off hoff
    exact decode_busRead_misaligned (regAt_of_digest_range hrange) halign
  · have hdigest : ∀ off ∈ [0x050#12, 0x054#12],
        (0x050 ≤ off.toNat ∧ off.toNat ≤ 0x057) ∧ off.toNat % 4 = 0 := by simp
    obtain ⟨hrange, halign⟩ := hdigest off hoff
    exact writesReadOnly_of_readOnly (regAt_of_digest_range hrange) rfl halign

/-! ### DIGEST and RESULT (R139, R140, R143) -/

/-- The bytes of RESULT_HI are digest bytes 3 to 0. -/
theorem byteOf_hiHalf (R : DWord) {j : Nat} (hj : j < 4) : byteOf (hiHalf R) j = digestByte R (3 - j) := by
  apply BitVec.eq_of_getLsbD_eq
  intro b hb
  have hbits : 8 * j + b < 32 ∧ 56 - 8 * (3 - j) = 32 + 8 * j := by omega
  simp [byteOf, hiHalf, digestByte, hb, hbits, Nat.add_assoc]

/-- The bytes of RESULT_LO are digest bytes 7 to 4. -/
theorem byteOf_loHalf (R : DWord) {j : Nat} (hj : j < 4) : byteOf (loHalf R) j = digestByte R (7 - j) := by
  apply BitVec.eq_of_getLsbD_eq
  intro b hb
  have hbits : 8 * j + b < 32 ∧ 56 - 8 * (7 - j) = 8 * j := by omega
  simp [byteOf, loHalf, digestByte, hb, hbits]

/-- The byte reversal of a word: its lowest byte becomes the highest. -/
def reverseBytes (w : Word) : Word := byteOf w 0 ++ byteOf w 1 ++ byteOf w 2 ++ byteOf w 3

theorem digestRead_zero_eq_reverseBytes (R : DWord) : digestRead .b4 R 0 = reverseBytes (hiHalf R) := by
  rw [digestRead_b4_eq_append, reverseBytes]
  simp [byteOf_hiHalf]

theorem digestRead_four_eq_reverseBytes (R : DWord) : digestRead .b4 R 4 = reverseBytes (loHalf R) := by
  rw [digestRead_b4_eq_append, reverseBytes]
  simp [byteOf_loHalf]

/-- Settles O45: a DIGEST word is packed from the bytes of its half of the result, the highest first. -/
theorem digestIsByteReversedResult : Obligations.DigestIsByteReversedResult := by
  intro s
  refine ⟨loHalf s.result, hiHalf s.result, rfl, rfl, ?_, ?_⟩
  · exact congrArg (readOkay · s) (digestRead_zero_eq_reverseBytes s.result)
  · exact congrArg (readOkay · s) (digestRead_four_eq_reverseBytes s.result)

end Sys2Proof.Machine
end

section
/-! # Proofs of the control family (spec/42_control.md)

The widths a register refuses, the frame of a write from the effect it has, and each operation's answer with its next
state written out: identification, control, status and command, then the halves of the 64-bit registers. -/

namespace Sys2Proof.Machine

/-! ### Widths that a register refuses (R55, R201) -/

theorem regAt_offset (r : Reg) : regAt r.offset = some r := by cases r <;> rfl

/-- An access of a register at its own offset, in a direction and a width that it does not allow. -/
theorem decode_of_refusedWidth {d : BitVec 1} {n : Size} {r : Reg} (v : Word)
    (hro : (d.getLsbD 0 && r.readOnly) = false) (hwidth : ¬ AllowsWidth (d.getLsbD 0) r n) :
    decode ⟨portWord d n.code r.offset, v⟩ = .busError .badSize := by
  have h := access_portWord (regAt_offset r) d n v
  refine h.decode_of_badSize ?_ ?_ (selectRow_of_not_allowsWidth h ?_)
  · rw [off_portWord]
    exact offset_mod_bytes r n
  · rwa [isWrite_portWord]
  · rwa [isWrite_portWord]

/-- Only DIGEST has narrow reads. -/
theorem narrowReadsBadSize_offset {r : Reg} (h : r ≠ .digest) : NarrowReadsBadSize r.offset :=
  ⟨decode_of_refusedWidth (d := 0) 0 rfl (by simp [AllowsWidth, h]),
    decode_of_refusedWidth (d := 0) 0 rfl (by simp [AllowsWidth, h])⟩

/-- Only DATA has narrow writes; on a read-only register they are cause 4. -/
theorem narrowWritesBadSize_offset {r : Reg} (hro : r.readOnly = false) (h : r ≠ .data) :
    NarrowWritesBadSize r.offset := fun v =>
  ⟨decode_of_refusedWidth (d := 1) v hro (by simp [AllowsWidth, h]),
    decode_of_refusedWidth (d := 1) v hro (by simp [AllowsWidth, h])⟩

theorem writesReadOnly_offset {r : Reg} (hro : r.readOnly = true) : WritesReadOnly r.offset :=
  writesReadOnly_of_readOnly (regAt_offset r) hro (offset_mod_four r)

/-! ### The frame of a write (R163 to R185, R134 to R136) -/

/-- A write answers without a value; every other operation has bit 15 of its word clear. -/
theorem exec_of_write {i : Instr} (h : writes i = true) (s : State) :
    ∃ u, exec i s = .next (State.respond ⟨.okay, none⟩ u) := by
  cases i with
  | wr32Ctrl | wr32Status | wr32Cmd | wr32PolyLo | wr32PolyHi | wr32SeedLo | wr32SeedHi | wr32XoroutLo
  | wr32XoroutHi | wr32AccLo | wr32AccHi | wr8Data | wr16Data | wr32Data => exact ⟨_, rfl⟩
  | rd8Digest k | rd16Digest k | rd32Digest k | rd32Table i h => simp [writes, Instr.word] at h
  | _ => cases h

theorem exec_write_answers {i : Instr} (h : writes i = true) (s : State) :
    ∃ t, exec i s = .next t ∧ t.responses = s.responses ++ [⟨.okay, none⟩] ∧ t.pending = s.pending := by
  obtain ⟨u, hu⟩ := exec_of_write h s
  obtain ⟨t, d, ht, hresponses, hpending⟩ := exec_answers i s
  obtain rfl : t = u.respond ⟨.okay, none⟩ := Host.Outcome.next.inj (ht.symm.trans hu)
  have hlast : (⟨.okay, none⟩ : Response) = ⟨.okay, d⟩ := by
    rw [State.respond_responses] at hresponses
    exact List.singleton_inj.mp (List.append_inj' hresponses rfl).2
  exact ⟨_, hu, hlast ▸ hresponses, hpending⟩

theorem exists_dataWrite_of_bytesFolded {i : Instr} {bs : List Byte} (h : bytesFolded i = some bs) :
    ∃ l v, i = .wr8Data l v ∨ i = .wr16Data l v ∨ i = .wr32Data v := by
  cases i with
  | wr8Data l v => exact ⟨l, v, .inl rfl⟩
  | wr16Data l v => exact ⟨l, v, .inr (.inl rfl)⟩
  | wr32Data v => exact ⟨0, v, .inr (.inr rfl)⟩
  | _ => cases h

/-- Settles O24: a write gives its response, and each kind of effect writes its own registers only. -/
theorem writesFrame : Obligations.WritesFrame := by
  intro i s hw
  obtain ⟨t, ht, hresponses, hpending⟩ := exec_write_answers hw s
  refine ⟨t, ht, hresponses, hpending, fun hcmd => ?_⟩
  obtain ⟨u, d, hu, rfl⟩ := exec_effect ht
  cases hu with
  | unchanged => simp
  | setReflect v => simp
  | clearError => simp
  | softReset | initMessage => exact absurd rfl (hcmd _)
  | setPoly hi | setSeed hi | setXorout hi | setAcc hi => obtain rfl | rfl := hi <;> simp
  | foldData hi =>
    obtain ⟨l, v, rfl | rfl | rfl⟩ := exists_dataWrite_of_bytesFolded hi <;> simp [State.foldBytes_eq]

/-! ### Identification (R160, R161) -/

/-- Settles O25: the words are the operations' own, the answers the constants with CAPS written out, and both registers
are read-only. -/
theorem identificationReads : Obligations.IdentificationReads := by
  refine ⟨fun v => ?_, fun v => ?_, fun s => ⟨rfl, rfl⟩, ?_, ?_, ?_, ?_⟩
  · exact decode_word (i := .rd32Id) rfl v
  · exact decode_word (i := .rd32Caps) rfl v
  · exact writesReadOnly_offset (r := .id) rfl
  · exact narrowReadsBadSize_offset (r := .id) (by decide)
  · exact writesReadOnly_offset (r := .caps) rfl
  · exact narrowReadsBadSize_offset (r := .caps) (by decide)

/-! ### Control, status and command (R162 to R169, R144) -/

theorem ctrlWord_eq_ite (s : State) : ctrlWord s = if s.reflect then 1 else 0 := by
  cases h : s.reflect <;> simp [ctrlWord, h]

theorem statusWord_eq_append (s : State) :
    statusWord s = 0#24 ++ s.cause ++ 0#3 ++ (if s.err then 1#1 else 0#1) := by
  cases h : s.err <;> simp [statusWord, h]

theorem errinfoWord_eq_append (s : State) : errinfoWord s = 0#16 ++ s.errinfo :=
  BitVec.setWidth_eq_append (by decide)

/-- Settles O26: the words are the operations' own, the answers the registers' words, and BYTECOUNT and ERRINFO are
read-only. -/
theorem controlReads : Obligations.ControlReads := by
  refine ⟨fun v => ⟨?_, ?_, ?_, ?_, ?_, ?_⟩, fun s => ⟨?_, ?_, rfl, rfl, ?_, rfl⟩, ?_, ?_, ?_, ?_, ?_, ?_, ?_, ?_⟩
  · exact decode_word (i := .rd32Ctrl) rfl v
  · exact decode_word (i := .rd32Status) rfl v
  · exact decode_word (i := .rd32Cmd) rfl v
  · exact decode_word (i := .rd32Bytecount) rfl v
  · exact decode_word (i := .rd32Errinfo) rfl v
  · exact decode_word (i := .rd32Data) rfl v
  · rw [← ctrlWord_eq_ite]
    rfl
  · rw [← statusWord_eq_append]
    rfl
  · rw [← errinfoWord_eq_append]
    rfl
  · exact narrowReadsBadSize_offset (r := .ctrl) (by decide)
  · exact narrowReadsBadSize_offset (r := .status) (by decide)
  · exact narrowReadsBadSize_offset (r := .cmd) (by decide)
  · exact narrowReadsBadSize_offset (r := .bytecount) (by decide)
  · exact narrowReadsBadSize_offset (r := .errinfo) (by decide)
  · exact narrowReadsBadSize_offset (r := .data) (by decide)
  · exact writesReadOnly_offset (r := .bytecount) rfl
  · exact writesReadOnly_offset (r := .errinfo) rfl

theorem State.setReflect_building_of_ne {r : Bool} {s : State} (h : r ≠ s.reflect) :
    (s.setReflect r).building = (s.building || s.tableRam.isSome) := by
  rw [State.setReflect_building, bne_iff_ne.mpr h, Bool.true_and]

/-- Settles O27: the write sets REFLECT, which leaves the RAM where the value stays and starts a build where it
changes; TABLE reads and the fold read the new REFLECT. -/
theorem controlWrite : Obligations.ControlWrite := by
  obtain ⟨-, reads_entry, -⟩ := tableReads
  refine ⟨fun v => decode_word (i := .wr32Ctrl 0) rfl v, narrowWritesBadSize_offset (r := .ctrl) rfl (by decide),
    fun s v => ⟨_, exec_wr32Ctrl v s, rfl, fun hsame => ?_, fun hchanged => ?_, ?_, reads_entry _,
      State.foldByte_acc _⟩⟩
  · rw [State.respond_tableRam, hsame, State.setReflect_tableRam_of_same]
  · exact State.setReflect_building_of_ne hchanged
  · exact State.setReflect_isSome _ s

theorem clearStatus_of_set {v : Word} (h : v.getLsbD 0 = true) (s : State) :
    clearStatus v s = { s with err := false, cause := 0 } := by
  simp only [clearStatus, h, Bool.not_true, Bool.and_false, if_true]

theorem clearStatus_of_clear {v : Word} (h : v.getLsbD 0 = false) (s : State) : clearStatus v s = s := by
  simp only [clearStatus, h, Bool.not_false, Bool.and_true, Bool.false_eq_true, if_false]

/-- Settles O28, by the bit that is written. -/
theorem statusWriteOneToClear : Obligations.StatusWriteOneToClear := by
  refine ⟨fun v => decode_word (i := .wr32Status 0) rfl v,
    narrowWritesBadSize_offset (r := .status) rfl (by decide), fun s v => ⟨fun hset => ?_, fun hclear => ?_⟩⟩
  · rw [exec_wr32Status, clearStatus_of_set hset]
    rfl
  · rw [exec_wr32Status, clearStatus_of_clear hclear]
    rfl

/-- Settles O29, by the two command bits. -/
theorem commandWrite : Obligations.CommandWrite := by
  refine ⟨fun v => decode_word (i := .wr32Cmd 0) rfl v, narrowWritesBadSize_offset (r := .cmd) rfl (by decide),
    fun s v => ⟨fun hsrst hinit => ?_, fun hsrst hinit => ?_, fun hsrst => ?_⟩⟩
  · rw [exec_wr32Cmd, State.command_of_none hsrst hinit]
    rfl
  · rw [exec_wr32Cmd, State.command_of_init hsrst hinit]
    rfl
  · rw [exec_wr32Cmd, State.command_of_srst hsrst]
    exact ⟨_, rfl, rfl, State.resetBlock_isSome s⟩

/-! ### The 64-bit registers (R170 to R185) -/

/-- The registers that hold the halves of POLY, SEED, XOROUT and ACC, in the order of their offsets. -/
def halfRegs : List Reg := [.polyLo, .polyHi, .seedLo, .seedHi, .xoroutLo, .xoroutHi, .accLo, .accHi]

theorem narrowAccessesBadSize_halfRegs : ∀ r ∈ halfRegs, NarrowReadsBadSize r.offset ∧ NarrowWritesBadSize r.offset := by
  have hregs : ∀ r ∈ halfRegs, r ≠ .digest ∧ r.readOnly = false ∧ r ≠ .data := by decide
  intro r hr
  obtain ⟨hdigest, hro, hdata⟩ := hregs r hr
  exact ⟨narrowReadsBadSize_offset hdigest, narrowWritesBadSize_offset hro hdata⟩

theorem narrowAccessesBadSize_halfOffsets :
    ∀ off ∈ [0x020#12, 0x024#12, 0x028#12, 0x02C#12, 0x030#12, 0x034#12, 0x038#12, 0x03C#12],
      NarrowReadsBadSize off ∧ NarrowWritesBadSize off := by
  have hoffsets : [0x020#12, 0x024#12, 0x028#12, 0x02C#12, 0x030#12, 0x034#12, 0x038#12, 0x03C#12] =
    halfRegs.map Reg.offset := rfl
  rw [hoffsets]
  exact List.forall_mem_map.mpr narrowAccessesBadSize_halfRegs

/-- Settles O30: the words are the operations' own, the answers the halves, and the eight offsets those of registers
with neither narrow reads nor narrow writes. -/
theorem configurationReads : Obligations.ConfigurationReads := by
  refine ⟨fun v => ⟨?_, ?_, ?_, ?_, ?_, ?_, ?_, ?_⟩, fun s => ⟨rfl, rfl, rfl, rfl, rfl, rfl, rfl, rfl⟩, ?_⟩
  · exact decode_word (i := .rd32PolyLo) rfl v
  · exact decode_word (i := .rd32PolyHi) rfl v
  · exact decode_word (i := .rd32SeedLo) rfl v
  · exact decode_word (i := .rd32SeedHi) rfl v
  · exact decode_word (i := .rd32XoroutLo) rfl v
  · exact decode_word (i := .rd32XoroutHi) rfl v
  · exact decode_word (i := .rd32AccLo) rfl v
  · exact decode_word (i := .rd32AccHi) rfl v
  · exact narrowAccessesBadSize_halfOffsets

/-- Settles O31: the words are the operations' own, each next state is as `exec` gives it, and the six offsets are those
of registers without narrow writes. -/
theorem seedXoroutAccWrites : Obligations.SeedXoroutAccWrites := by
  refine ⟨fun v => ⟨?_, ?_, ?_, ?_, ?_, ?_⟩, ?_, fun s v => ⟨rfl, rfl, rfl, rfl, rfl, rfl⟩⟩
  · exact decode_word (i := .wr32SeedLo 0) rfl v
  · exact decode_word (i := .wr32SeedHi 0) rfl v
  · exact decode_word (i := .wr32XoroutLo 0) rfl v
  · exact decode_word (i := .wr32XoroutHi 0) rfl v
  · exact decode_word (i := .wr32AccLo 0) rfl v
  · exact decode_word (i := .wr32AccHi 0) rfl v
  · exact fun off hoff => (narrowAccessesBadSize_halfOffsets off (List.mem_of_mem_drop (i := 2) hoff)).2

theorem State.setPoly_building_of_ne {P : DWord} {s : State} (h : P ≠ s.poly) :
    (s.setPoly P).building = (s.building || s.tableRam.isSome) := by
  rw [State.setPoly_building, bne_iff_ne.mpr h, Bool.true_and]

/-- Settles O32: both writes set POLY, which leaves the RAM where the value stays and starts a build where it changes;
TABLE reads and the fold read the new POLY. -/
theorem polyWrites : Obligations.PolyWrites := by
  obtain ⟨-, reads_entry, -⟩ := tableReads
  refine ⟨fun v => ⟨?_, ?_⟩, ?_, ?_, fun s v => ?_⟩
  · exact decode_word (i := .wr32PolyLo 0) rfl v
  · exact decode_word (i := .wr32PolyHi 0) rfl v
  · exact narrowWritesBadSize_offset (r := .polyLo) rfl (by decide)
  · exact narrowWritesBadSize_offset (r := .polyHi) rfl (by decide)
  · intro sets
    have sets_of_setPoly {i : Instr} {P : DWord}
        (hexec : exec i s = .next (State.respond ⟨.okay, none⟩ (s.setPoly P))) : sets i P := by
      refine ⟨_, hexec, rfl, fun hsame => ?_, fun hchanged => ?_, ?_, reads_entry _, State.foldByte_acc _⟩
      · rw [State.respond_tableRam, hsame, State.setPoly_tableRam_of_same]
      · exact State.setPoly_building_of_ne hchanged
      · exact State.setPoly_isSome P s
    exact ⟨sets_of_setPoly (exec_wr32PolyLo v s), sets_of_setPoly (exec_wr32PolyHi v s)⟩

end Sys2Proof.Machine
end

section
/-! # Proofs of the exceptions family (spec/60_exceptions.md)

A bus error while ERR is 1 is only its response (R207); with the writers of the record's states (R20) that leaves the
clear, SRST and reset as what changes the record. -/

namespace Sys2Proof.Machine

/-- While ERR is 1 the first error is kept: a further one is not recorded (R207). -/
theorem recordError_of_err {s : State} (herr : s.err = true) (c : BusCause) (tw : Half) : recordError c tw s = s := by
  cases s
  simp_all [recordError]

/-- While ERR is 1 a bus error is its SLVERR response and no more. -/
theorem busError_of_err {s : State} (herr : s.err = true) (c : BusCause) (tr : Transaction) :
    busError c tr s = s.respond ⟨.slverr, if tr.isWrite then none else some 0⟩ := by
  rw [busError, recordError_of_err herr]

/-- The step of a further error takes the event, ends a running build and answers SLVERR. -/
theorem step_of_furtherError {s t : State} (herr : s.err = true) (herror : TakesError s) (h : step s = .next t) :
    ∃ d, t = { s.hold with
      pending := s.pending.tail, responses := s.responses ++ [⟨.slverr, d⟩] } := by
  obtain ⟨tr, rest, c, hp, hd⟩ := herror
  have herr' : ({ s with pending := rest } : State).hold.err = true := herr
  rw [step_of_busError hp hd, busError_of_err herr'] at h
  cases h
  exact ⟨_, by rw [hp]; rfl⟩

/-- Settles O21: a further error leaves the record, so a step that changes it is another of the record's writers. -/
theorem errorRecordIsSticky : Obligations.ErrorRecordIsSticky := by
  intro s t herr h
  refine ⟨fun hchanged => ?_, fun herror => step_of_furtherError herr herror h⟩
  have hnoError : ¬ TakesError s := by
    intro herror
    obtain ⟨d, rfl⟩ := step_of_furtherError herr herror h
    simp at hchanged
  obtain ⟨-, hstatus, herrinfo, -⟩ := stateChangesOnlyAtItsWriters s t h
  obtain hflags | hinfo : (t.err ≠ s.err ∨ t.cause ≠ s.cause) ∨ t.errinfo ≠ s.errinfo := or_assoc.mpr hchanged
  · exact (hstatus hflags).resolve_left hnoError
  · exact .inr ((herrinfo hinfo).resolve_left hnoError)

/-- Settles O11: the step is `busError` after the hold, and its code is R201's for each cause. -/
theorem busErrorEffect : Obligations.BusErrorEffect := by
  intro s tr rest c hp hd
  rw [step_of_busError hp hd]
  cases c <;> rfl

end Sys2Proof.Machine
end

section
/-! # Proofs of the reset and hazards family (spec/70_reset_and_hazards.md)

The reset event, the configuration written in mid-message (R235, R237), and the bound on the response time (R236,
R240). -/

namespace Sys2Proof.Machine

/-! ### Reset (R230, R231) -/

/-- Settles O13: the step of a reset event is `resetBlock`, which leaves the reset values and the model's own fields. -/
theorem resetEventEffect : Obligations.ResetEventEffect := by
  intro s a rest hp
  have hreset := hasResetValues_resetBlock { s with pending := rest }
  exact ⟨_, step_of_reset hp, hreset.reflect, hreset.err, hreset.cause, hreset.errinfo, hreset.bytecount, hreset.poly,
    hreset.seed, hreset.xorout, hreset.acc, State.resetBlock_isSome _, rfl, rfl, rfl⟩

/-! ### Writes of the configuration in mid-message (R235, R237) -/

/-- The registers that decide a checksum: all of the block's values but the count and the error record. -/
@[ext] structure CrcRegs where
  poly : DWord
  reflect : Bool
  acc : DWord
  seed : DWord
  xorout : DWord

/-- These registers of a state. -/
def State.crcRegs (s : State) : CrcRegs := ⟨s.poly, s.reflect, s.acc, s.seed, s.xorout⟩

/-- A message folded under the configuration in force. -/
def CrcRegs.fold (m : List Byte) (r : CrcRegs) : CrcRegs := { r with acc := foldMessage r.poly r.reflect r.acc m }

/-- Running the operations `is`, wherever they are issued next, changes the registers by `f` and leaves pending what
was issued after them. -/
def Transforms (is : List Instr) (f : CrcRegs → CrcRegs) : Prop :=
  ∀ (s : State) (rest : List HostEvent), s.pending = issue is ++ rest →
    ∃ t, core.run is.length s = .next t ∧ t.crcRegs = f s.crcRegs ∧ t.pending = rest

theorem Transforms.append {is js : List Instr} {f g : CrcRegs → CrcRegs} (hf : Transforms is f)
    (hg : Transforms js g) : Transforms (is ++ js) (g ∘ f) := by
  intro s rest hp
  have hp' : s.pending = issue is ++ (issue js ++ rest) := by
    rw [hp, issue, List.map_append, List.append_assoc]
    rfl
  obtain ⟨u, hrunU, hregsU, hpU⟩ := hf s _ hp'
  obtain ⟨t, hrunT, hregsT, hpT⟩ := hg u rest hpU
  rw [List.length_append]
  exact ⟨t, (run_add hrunU _).trans hrunT, hregsT.trans (congrArg g hregsU), hpT⟩

/-- One operation changes the registers as its `exec` does: the hold before it leaves them. -/
theorem transforms_singleton {i : Instr} {f : CrcRegs → CrcRegs} (hi : i.wf = true)
    (hexec : ∀ s, ∃ t, exec i s = .next t ∧ t.crcRegs = f s.crcRegs) : Transforms [i] f := by
  intro s rest hp
  obtain ⟨t, ht, hregs⟩ := hexec ({ s with pending := rest } : State).hold
  exact ⟨t, run_issue_one hp hi ht, hregs, exec_pending ht⟩

theorem transforms_wr32PolyLo (lo : Word) :
    Transforms [.wr32PolyLo lo] fun r => { r with poly := withLo r.poly lo } :=
  transforms_singleton rfl fun s => ⟨_, exec_wr32PolyLo lo s, rfl⟩

theorem transforms_wr32PolyHi (hi : Word) :
    Transforms [.wr32PolyHi hi] fun r => { r with poly := withHi r.poly hi } :=
  transforms_singleton rfl fun s => ⟨_, exec_wr32PolyHi hi s, rfl⟩

theorem transforms_wr32Ctrl (ctrl : Word) :
    Transforms [.wr32Ctrl ctrl] fun r => { r with reflect := ctrl.getLsbD 0 } :=
  transforms_singleton rfl fun s => ⟨_, exec_wr32Ctrl ctrl s, rfl⟩

theorem transforms_feedBytes (m : List Byte) : Transforms (feedBytes m) (CrcRegs.fold m) := by
  intro s rest hp
  obtain ⟨t, hrun, hacc, -, -, hpending, hreflect, -, -, -, hpoly, hseed, hxorout⟩ :=
    dataWritesFoldTheMessage s (feedBytes m) rest (isDataWrite_feedBytes m) hp
  rw [messageOf_feedBytes] at hacc
  exact ⟨t, hrun, CrcRegs.ext hpoly hreflect hacc hseed hxorout, hpending⟩

/-- The high half written after the low one: nothing of the old value is left. -/
theorem withHi_withLo_eq_append (v : DWord) (lo hi : Word) : withHi (withLo v lo) hi = hi ++ lo := by
  rw [withHi, loHalf_withLo]

/-- Settles O49: the register changes of the parts, one after the other; at POLY_HI the mixed POLY gives way to the new
one. -/
theorem bytesFoldUnderTheConfigurationInForce : Obligations.BytesFoldUnderTheConfigurationInForce := by
  intro s lo hi ctrl m₁ m₂ m₃ rest _ hp
  have configure := (transforms_wr32PolyLo lo).append (transforms_wr32Ctrl ctrl)
  have finish := (transforms_wr32PolyHi hi).append (transforms_feedBytes m₃)
  have parts := (transforms_feedBytes m₁).append (configure.append ((transforms_feedBytes m₂).append finish))
  obtain ⟨t, hrun, hregs, hpending⟩ := parts s rest hp
  rw [← withHi_withLo_eq_append s.poly lo hi]
  exact ⟨t, hrun, congrArg CrcRegs.acc hregs, congrArg CrcRegs.poly hregs, congrArg CrcRegs.seed hregs,
    congrArg CrcRegs.xorout hregs, hpending⟩

/-! ### The response time (R236, R240) -/

/-- `ceil(n / LANES)` as two inequalities: enough cycles, and not one too many. -/
theorem foldCycles_isCeil (lanes : Lanes) (n : Nat) :
    n ≤ lanes.count * foldCycles lanes n ∧ lanes.count * foldCycles lanes n < n + lanes.count := by
  cases lanes <;> simp only [foldCycles, Lanes.count] <;> omega

/-- One lane is the slowest. -/
theorem foldCycles_le (lanes : Lanes) (n : Nat) : foldCycles lanes n ≤ n := by
  cases lanes <;> simp only [foldCycles, Lanes.count] <;> omega

theorem length_le_of_bytesFolded {i : Instr} {bs : List Byte} (h : bytesFolded i = some bs) : bs.length ≤ 4 := by
  obtain ⟨l, v, rfl | rfl | rfl⟩ := exists_dataWrite_of_bytesFolded h <;> cases h <;> simp

theorem transactionCycles_of_fold {t : Transaction} {i : Instr} {bs : List Byte} (hd : decode t = .op i)
    (hfold : bytesFolded i = some bs) : transactionCycles t = foldCycles Config.lanes bs.length := by
  obtain ⟨l, v, rfl | rfl | rfl⟩ := exists_dataWrite_of_bytesFolded hfold <;> cases hfold <;>
    simp [transactionCycles, hd]

theorem transactionCycles_of_noFold {t : Transaction} (h : ∀ i, decode t = .op i → bytesFolded i = none) :
    transactionCycles t = Config.tAcc := by
  unfold transactionCycles
  split
  case h_4 => rfl
  all_goals exact absurd (h _ ‹_›) (by simp [bytesFolded])

theorem transactionCycles_le (t : Transaction) : transactionCycles t ≤ max Config.tAcc 4 := by
  by_cases h : ∀ i, decode t = .op i → bytesFolded i = none
  · rw [transactionCycles_of_noFold h]
    exact le_max_left _ _
  · push Not at h
    obtain ⟨i, hd, hfold⟩ := h
    obtain ⟨bs, hbs⟩ := Option.ne_none_iff_exists'.mp hfold
    calc transactionCycles t
      _ = foldCycles Config.lanes bs.length := transactionCycles_of_fold hd hbs
      _ ≤ bs.length := foldCycles_le _ _
      _ ≤ 4 := length_le_of_bytesFolded hbs
      _ ≤ max Config.tAcc 4 := le_max_right _ _

theorem holdCycles_of_building {s : State} (h : s.building = true) : holdCycles s = Config.tBuild := if_pos h

theorem holdCycles_of_ready {s : State} (h : s.building = false) : holdCycles s = 0 := by simp [holdCycles, h]

theorem holdCycles_le (s : State) : holdCycles s ≤ Config.tBuild := by
  cases h : s.building with
  | true => exact (holdCycles_of_building h).le
  | false => exact (holdCycles_of_ready h).trans_le (Nat.zero_le _)

/-- Settles O53: the hold and the transaction, each with its values and its bound. -/
theorem responseTimeIsBounded : Obligations.ResponseTimeIsBounded :=
  ⟨foldCycles_isCeil,
    fun _ _ _ => ⟨fun hd => transactionCycles_of_fold hd rfl, fun hd => transactionCycles_of_fold hd rfl,
      fun hd => transactionCycles_of_fold hd rfl⟩,
    fun _ => transactionCycles_of_noFold,
    fun _ => ⟨holdCycles_of_building, holdCycles_of_ready⟩,
    fun t s => ⟨rfl, Nat.add_le_add (holdCycles_le s) (transactionCycles_le t)⟩⟩

end Sys2Proof.Machine
end
